-- ==== Sys2Proof/Word.lean ====
section
/-!
DEFINITION. The word types of the 65816: the 8-bit byte, the 16-bit word and the 24-bit address of R60, the
operand width that P.M or P.X selects (R9), and an immediate operand as the bytes it is written in (R102, R132).
-/
namespace Sys2Proof

/-- The addressable unit (R60). -/
abbrev Byte := BitVec 8

/-- A 16-bit register, offset or operand (R21 to R27). -/
abbrev Word := BitVec 16

/-- A 24-bit address `bank:offset` (R60). -/
abbrev Addr := BitVec 24

/-- The two operand widths of R9: `wA` and `wI` are each one of them. -/
inductive Width where
  | w8
  | w16
  deriving DecidableEq, Repr

/-- The width in bits (R9). -/
@[reducible] def Width.bits : Width → Nat
  | .w8 => 8
  | .w16 => 16

/-- The width in bytes (`nA`, `nI` of R9). -/
@[reducible] def Width.bytes : Width → Nat
  | .w8 => 1
  | .w16 => 2

/-- An immediate operand of one of the twelve width-dependent opcodes, as the bytes it is encoded in (R102). -/
inductive Imm where
  | byte (v : Byte)
  | word (v : Word)
  deriving DecidableEq, Repr

/-- The width an immediate is encoded at. -/
def Imm.width : Imm → Width
  | .byte _ => .w8
  | .word _ => .w16

end Sys2Proof
end

