-- ==== Sys2Proof/Config.lean ====
section
/-!
DEFINITION. What a byte access is for (R65), and the free values of the model: what a warm reset leaves in the registers
that R42 and R450 call unspecified and in all RAM (the parameter RESET_UNSPEC of R5), and what a device answers (R70, R475).
Each is an uninterpreted function of the counter `State.draw` (log 6, log 24): nothing in Lean can evaluate it. The other
parameters of R5: MEM, VECTORS and the input lines are fields of State; EMU_DP_PAGE_WRAP and TCD_SETS_NZ stand in
Machine/Params.lean, BCD_ADC and BCD_SBC in Machine/Flags.lean; HAS_ABORT is `chooseAction`'s refusal (log 11).
-/
namespace Sys2Proof

/-- What one byte access of an instruction is for (R65). -/
inductive Access where
  /-- An opcode or operand byte (R67). -/
  | fetch
  /-- A byte of an interrupt or reset vector (R411, R450). -/
  | vector
  /-- A push or a pull (R68). -/
  | stack
  /-- A byte of the pointer that an indirect mode reads (R143 to R150, R152). -/
  | pointer
  /-- Data at an address that is neither indexed nor indirect, and not read and written back. -/
  | operand
  /-- Data of an indexed or an indirect mode, or of a read-modify-write instruction (R70). -/
  | exposed
  deriving DecidableEq, Repr

/-- The accumulator after the warm reset with draw number `n` (R42; log 6). -/
opaque Config.resetC : Nat → Word

/-- `X[7:0]` after the warm reset with draw number `n` (R42; log 6). -/
opaque Config.resetXL : Nat → Byte

/-- `Y[7:0]` after the warm reset with draw number `n` (R42; log 6). -/
opaque Config.resetYL : Nat → Byte

/-- `SL` after the warm reset with draw number `n` (R42, R450; log 6). -/
opaque Config.resetSL : Nat → Byte

/-- A byte whose bits 7, 6, 1, 0 are `P.N`, `P.V`, `P.Z`, `P.C` after the warm reset with draw number `n` (R42, R450; log 6). -/
opaque Config.resetNVZC : Nat → Byte

/-- All RAM after the warm reset with draw number `n`: the bytes at the addresses listed, a later one over an earlier one
(R5, R450; log 6). -/
opaque Config.resetRam : Nat → List (Addr × Byte)

/-- What a device answers to a read at an address for a purpose, at the boundary with draw number `n`, after the device
writes `written`, the latest first (R70, R475; log 24). -/
opaque Config.deviceByte (written : List Host.Cell) (n : Nat) (k : Access) (a : Addr) : Byte

end Sys2Proof
end

