-- ==== Sys2Proof/Machine/Bits.lean ====
section
/-!
DEFINITION. Bit fields, concatenation, sign extension and single-bit writes (R6, R7, R8).
-/
namespace Sys2Proof

/-- `v[7:0]` of a 16-bit value. -/
def lo (v : Word) : Byte := v.setWidth 8

/-- `v[15:8]` of a 16-bit value. -/
def hi (v : Word) : Byte := v.extractLsb' 8 8

/-- `h:l`, the high byte first (R6). -/
def word (h l : Byte) : Word := h ++ l

/-- `bank:offset` (R6, R60). -/
def addr (bank : Byte) (offset : Word) : Addr := bank ++ offset

/-- The bank byte of a 24-bit address. -/
def bankOf (a : Addr) : Byte := a.extractLsb' 16 8

/-- The offset of a 24-bit address inside its bank. -/
def offsetOf (a : Addr) : Word := a.setWidth 16

/-- `sext_16` of an 8-bit value (R7). -/
def sext16 (v : Byte) : Word := v.signExtend 16

/-- The byte `p` with bit `i` written to `b` and every other bit kept. -/
def setBit (p : Byte) (i : Nat) (b : Bool) : Byte :=
  if b then p ||| BitVec.twoPow 8 i else p &&& ~~~ BitVec.twoPow 8 i

end Sys2Proof
end

