-- ==== Sys2Proof/Machine/Params.lean ====
section
/-!
DEFINITION. The parameter VECTORS of R5, an argument held in `State.vectors`, with the default the spec gives it
(92_eei_decisions.md D8); the parameters EMU_DP_PAGE_WRAP and TCD_SETS_NZ at their defaults (D4, D16); and the byte an
unlisted memory address reads as.
-/
namespace Sys2Proof.Machine

/-- The events that go through the interrupt entry sequence of R411. ABORT is never entered (R404). -/
inductive Event where
  | brk
  | cop
  | irq
  | nmi
  deriving DecidableEq, Repr

/-- The parameter VECTORS: the ten bank-0 addresses of the vector table (R5, R410). -/
structure Vectors where
  nativeCop : Word
  nativeBrk : Word
  /-- Never read, since HAS_ABORT is false (R404; log 11). -/
  nativeAbort : Word
  nativeNmi : Word
  nativeIrq : Word
  emuCop : Word
  /-- Never read, since HAS_ABORT is false (R404; log 11). -/
  emuAbort : Word
  emuNmi : Word
  /-- RESET, which always enters emulation mode. -/
  emuReset : Word
  /-- Shared by IRQ and BRK. -/
  emuIrqBrk : Word
  deriving DecidableEq, Repr

/-- The default of VECTORS, the table of R410 (log 7). -/
def Vectors.defaults : Vectors where
  nativeCop := 0xFFE4
  nativeBrk := 0xFFE6
  nativeAbort := 0xFFE8
  nativeNmi := 0xFFEA
  nativeIrq := 0xFFEE
  emuCop := 0xFFF4
  emuAbort := 0xFFF8
  emuNmi := 0xFFFA
  emuReset := 0xFFFC
  emuIrqBrk := 0xFFFE

/-- `VECTORS[e][kind]`: the bank-0 address of an event's vector in the mode `e` (R410, R411). -/
def vectorOf (v : Vectors) (e : Bool) : Event → Word
  | .cop => if e then v.emuCop else v.nativeCop
  | .brk => if e then v.emuIrqBrk else v.nativeBrk
  | .nmi => if e then v.emuNmi else v.nativeNmi
  | .irq => if e then v.emuIrqBrk else v.nativeIrq

/-- EMU_DP_PAGE_WRAP (R5, R130; log 8). -/
def emuDpPageWrap : Bool := true

/-- TCD_SETS_NZ (R5, R366, 90_conflicts.md C1; log 9). -/
def tcdSetsNZ : Bool := true

/-- What an address with no entry in the memory list reads as: DESIGN CHOICE, unsafe (D28; log 4). -/
def unlistedByte : Byte := 0x00

end Sys2Proof.Machine
end

