-- ==== Sys2Proof/Machine/Memory.lean ====
section
/-!
DEFINITION. Memory contents (R60): a list of (address, byte) pairs with rising addresses below 2^24 and no entry equal to
what an unlisted address reads as, so that equal memories are equal lists.
-/
namespace Sys2Proof.Machine

/-- The listed bytes of the address space. -/
abbrev Memory := List Host.Cell

/-- The byte at address `a`. -/
def Memory.get : Memory → Nat → Byte
  | [], _ => unlistedByte
  | (k, v) :: m, a => if k = a then v else Memory.get m a

/-- `m` without any entry at `a`. -/
def Memory.erase (m : Memory) (a : Nat) : Memory := m.filter fun c => c.1 != a

/-- `m` with the entry `(a, v)` before the first higher address. -/
def Memory.place : Memory → Nat → Byte → Memory
  | [], a, v => [(a, v)]
  | (k, w) :: m, a, v => if a < k then (a, v) :: (k, w) :: m else (k, w) :: Memory.place m a v

/-- `m` with the byte at `a` changed to `v`, in canonical form. -/
def Memory.set (m : Memory) (a : Nat) (v : Byte) : Memory :=
  if v = unlistedByte then m.erase a else (m.erase a).place a v

/-- Entries from address `low` on: rising, below 2^24, none the unlisted byte. -/
def Memory.wfFrom (low : Nat) : Memory → Bool
  | [] => true
  | (k, v) :: m => low ≤ k && k < 2 ^ 24 && v != unlistedByte && Memory.wfFrom (k + 1) m

/-- The memory is in canonical form. -/
def Memory.wf (m : Memory) : Bool := Memory.wfFrom 0 m

end Sys2Proof.Machine
end

