-- ==== Sys2Proof/Machine/State.lean ====
section
/-!
DEFINITION. The state of the machine (R20) with the platform's part of it (R5: MEM, VECTORS and the input lines), the reasons a
step can stop, and the state right after reset (R42, R450).
-/
namespace Sys2Proof.Machine

/-- What the core does at the next boundary (R41, R420). -/
inductive RunState where
  | running
  | waiting
  | stopped
  deriving DecidableEq, Repr

/-- The platform inputs sampled at one boundary (R5, R401 to R405). -/
structure Inputs where
  /-- RESET_LINE (R401). -/
  reset : Bool
  /-- ABORT_LINE (R404). -/
  abort : Bool
  /-- IRQ_LINE, a level (R402). -/
  irq : Bool
  /-- NMI_EDGE: an edge arrived since the previous boundary (R403). -/
  nmiEdge : Bool
  deriving DecidableEq, Repr

/-- A boundary at which the platform asserts nothing. -/
def Inputs.quiet : Inputs := { reset := false, abort := false, irq := false, nmiEdge := false }

/-- What answers an address (R69): an address in no region is unmapped. -/
inductive RegionKind where
  | ram
  | rom
  /-- A device region: whether reads there have side effects, and whether the platform declares dummy cycles harmless there
  (R70). -/
  | device (readSideEffects dummiesHarmless : Bool)
  deriving DecidableEq, Repr

/-- The `size` addresses from `base` on. -/
structure Region where
  base : Nat
  size : Nat
  kind : RegionKind
  deriving DecidableEq, Repr

@[ext]
structure State where
  /-- The accumulator `C = B:A` (R21). -/
  c : Word
  /-- Index register X (R22). -/
  x : Word
  /-- Index register Y (R22). -/
  y : Word
  /-- The stack pointer (R23). -/
  s : Word
  /-- The direct page register (R24). -/
  d : Word
  /-- The data bank register (R25). -/
  dbr : Byte
  /-- The program bank register (R26). -/
  pbr : Byte
  /-- The program counter (R27). -/
  pc : Word
  /-- The status register, `N V M X D I Z C` in bits 7 to 0 (R28). -/
  p : Byte
  /-- The emulation flag (R37). -/
  e : Bool
  /-- RUN (R41). -/
  run : RunState
  /-- NMI_PENDING (R41, R403). -/
  nmiPending : Bool
  /-- The contents of memory (R60). -/
  mem : Memory
  /-- The parameter MEM: the first region that holds an address answers it (R5, R69; log 2). -/
  memMap : List Region
  /-- The parameter VECTORS (R5, R410; log 7). -/
  vectors : Vectors
  /-- The platform inputs of the coming boundaries, the next one first (R5, R405; log 1). -/
  inputs : List Inputs
  /-- What the core has written to device regions, the latest first; the device's own state is the platform's (R70, R475;
  log 24). -/
  deviceWrites : List Host.Cell
  /-- The model's own counter of boundaries behind the free values (log 6, log 24). -/
  draw : Nat
  deriving DecidableEq, Repr

/-- Why the machine stops with a fault: never. R400 lists every event of the machine and none is an access fault; U4 asks a
refusal, never a bus-error fault, of an access MEM does not admit (log 3). -/
inductive Fault
  deriving DecidableEq, Repr

/-- Why a step is given no meaning. -/
inductive Refusal where
  /-- An instruction without a meaning: no arm answers it. -/
  | notModelled (mnemonic : String)
  /-- An access to an address no region of MEM holds (R69, U4), raised by every byte read and write. Safe: nothing can be
  proved of what follows. -/
  | unmapped (a : Addr)
  /-- A write to ROM, which has no defined effect (R69, U4), raised by every byte write. Safe. -/
  | romWrite (a : Addr)
  /-- An indexed, indirect or read-modify-write access to a device region with read side effects whose dummy cycles the
  platform does not call harmless (R70, U10), raised by every byte read and write. Safe. -/
  | deviceAccess (a : Addr)
  /-- The platform asserts ABORT, which R404 says a model must refuse; raised by the step. Safe. -/
  | abortAsserted
  /-- The fetched bytes decode to nothing: never the case, since a fetch reads as many bytes as R102 says. Safe. -/
  | undecodable
  deriving DecidableEq, Repr

/-- The state right after reset (R42, R450): memory with nothing listed, one RAM region over the whole space (log 2), the
default vectors (log 7), no inputs to come (log 1), no device written (log 24); C, X, Y, SL, N, V, Z, C, which the spec
leaves unspecified, are zero (log 5). -/
def State.reset : State where
  c := 0x0000
  x := 0x0000
  y := 0x0000
  s := 0x0100
  d := 0x0000
  dbr := 0x00
  pbr := 0x00
  pc := word (Memory.get [] (Vectors.defaults.emuReset + 1).toNat) (Memory.get [] Vectors.defaults.emuReset.toNat)
  p := 0x34
  e := true
  run := .running
  nmiPending := false
  mem := []
  memMap := [{ base := 0, size := 2 ^ 24, kind := .ram }]
  vectors := Vectors.defaults
  inputs := []
  deviceWrites := []
  draw := 0

end Sys2Proof.Machine
end

