-- ==== Sys2Proof/Syntax.lean ====
section
/-!
DEFINITION. The instructions of the 65816: one constructor per row of spec/opcode_table.json (R105, completed by R106 and
R107), those with operand bytes first, each group in the order of the opcode byte. A constructor's arguments are its
operand bytes (R101): a direct-page or stack-relative offset, a signature byte or a branch offset is a `Byte`; an absolute
address, a long branch offset or the value of PEA a `Word`; a long address an `Addr`; a width-dependent immediate an `Imm`;
a block move names its destination bank and then its source bank, in the order of the bytes (R111).
-/
namespace Sys2Proof

inductive Instr where
  /-- $00 `BRK #const` (R340, R132). -/
  | brk (sig : Byte)
  /-- $01 `ORA (dp,X)` (R195, R144). -/
  | oraDpXInd (dp : Byte)
  /-- $02 `COP #const` (R341, R132). -/
  | cop (sig : Byte)
  /-- $03 `ORA sr,S` (R195, R151). -/
  | oraSr (sr : Byte)
  /-- $04 `TSB dp` (R311, R140). -/
  | tsbDp (dp : Byte)
  /-- $05 `ORA dp` (R195, R140). -/
  | oraDp (dp : Byte)
  /-- $06 `ASL dp` (R210, R140). -/
  | aslDp (dp : Byte)
  /-- $07 `ORA [dp]` (R195, R146). -/
  | oraDpIndLong (dp : Byte)
  /-- $09 `ORA #const` (R195, R132). -/
  | oraImm (imm : Imm)
  /-- $0C `TSB abs` (R311, R133). -/
  | tsbAbs (abs : Word)
  /-- $0D `ORA abs` (R195, R133). -/
  | oraAbs (abs : Word)
  /-- $0E `ASL abs` (R210, R133). -/
  | aslAbs (abs : Word)
  /-- $0F `ORA long` (R195, R137). -/
  | oraLong (long : Addr)
  /-- $10 `BPL label` (R241, R153). -/
  | bpl (rel : Byte)
  /-- $11 `ORA (dp),Y` (R195, R145). -/
  | oraDpIndY (dp : Byte)
  /-- $12 `ORA (dp)` (R195, R143). -/
  | oraDpInd (dp : Byte)
  /-- $13 `ORA (sr,S),Y` (R195, R152). -/
  | oraSrIndY (sr : Byte)
  /-- $14 `TRB dp` (R312, R140). -/
  | trbDp (dp : Byte)
  /-- $15 `ORA dp,X` (R195, R141). -/
  | oraDpX (dp : Byte)
  /-- $16 `ASL dp,X` (R210, R141). -/
  | aslDpX (dp : Byte)
  /-- $17 `ORA [dp],Y` (R195, R147). -/
  | oraDpIndLongY (dp : Byte)
  /-- $19 `ORA abs,Y` (R195, R136). -/
  | oraAbsY (abs : Word)
  /-- $1C `TRB abs` (R312, R133). -/
  | trbAbs (abs : Word)
  /-- $1D `ORA abs,X` (R195, R135). -/
  | oraAbsX (abs : Word)
  /-- $1E `ASL abs,X` (R210, R135). -/
  | aslAbsX (abs : Word)
  /-- $1F `ORA long,X` (R195, R139). -/
  | oraLongX (long : Addr)
  /-- $20 `JSR abs` (R256, R134). -/
  | jsrAbs (abs : Word)
  /-- $21 `AND (dp,X)` (R194, R144). -/
  | andDpXInd (dp : Byte)
  /-- $22 `JSL long` (R258, R138). -/
  | jsl (long : Addr)
  /-- $23 `AND sr,S` (R194, R151). -/
  | andSr (sr : Byte)
  /-- $24 `BIT dp` (R310, R140). -/
  | bitDp (dp : Byte)
  /-- $25 `AND dp` (R194, R140). -/
  | andDp (dp : Byte)
  /-- $26 `ROL dp` (R212, R140). -/
  | rolDp (dp : Byte)
  /-- $27 `AND [dp]` (R194, R146). -/
  | andDpIndLong (dp : Byte)
  /-- $29 `AND #const` (R194, R132). -/
  | andImm (imm : Imm)
  /-- $2C `BIT abs` (R310, R133). -/
  | bitAbs (abs : Word)
  /-- $2D `AND abs` (R194, R133). -/
  | andAbs (abs : Word)
  /-- $2E `ROL abs` (R212, R133). -/
  | rolAbs (abs : Word)
  /-- $2F `AND long` (R194, R137). -/
  | andLong (long : Addr)
  /-- $30 `BMI label` (R242, R153). -/
  | bmi (rel : Byte)
  /-- $31 `AND (dp),Y` (R194, R145). -/
  | andDpIndY (dp : Byte)
  /-- $32 `AND (dp)` (R194, R143). -/
  | andDpInd (dp : Byte)
  /-- $33 `AND (sr,S),Y` (R194, R152). -/
  | andSrIndY (sr : Byte)
  /-- $34 `BIT dp,X` (R310, R141). -/
  | bitDpX (dp : Byte)
  /-- $35 `AND dp,X` (R194, R141). -/
  | andDpX (dp : Byte)
  /-- $36 `ROL dp,X` (R212, R141). -/
  | rolDpX (dp : Byte)
  /-- $37 `AND [dp],Y` (R194, R147). -/
  | andDpIndLongY (dp : Byte)
  /-- $39 `AND abs,Y` (R194, R136). -/
  | andAbsY (abs : Word)
  /-- $3C `BIT abs,X` (R310, R135). -/
  | bitAbsX (abs : Word)
  /-- $3D `AND abs,X` (R194, R135). -/
  | andAbsX (abs : Word)
  /-- $3E `ROL abs,X` (R212, R135). -/
  | rolAbsX (abs : Word)
  /-- $3F `AND long,X` (R194, R139). -/
  | andLongX (long : Addr)
  /-- $41 `EOR (dp,X)` (R196, R144). -/
  | eorDpXInd (dp : Byte)
  /-- $42 `WDM #const` (R346, R132). -/
  | wdm (sig : Byte)
  /-- $43 `EOR sr,S` (R196, R151). -/
  | eorSr (sr : Byte)
  /-- $44 `MVP #srcbank,#dstbank` (R301, R155). -/
  | mvp (dst : Byte) (src : Byte)
  /-- $45 `EOR dp` (R196, R140). -/
  | eorDp (dp : Byte)
  /-- $46 `LSR dp` (R211, R140). -/
  | lsrDp (dp : Byte)
  /-- $47 `EOR [dp]` (R196, R146). -/
  | eorDpIndLong (dp : Byte)
  /-- $49 `EOR #const` (R196, R132). -/
  | eorImm (imm : Imm)
  /-- $4C `JMP abs` (R251, R134). -/
  | jmpAbs (abs : Word)
  /-- $4D `EOR abs` (R196, R133). -/
  | eorAbs (abs : Word)
  /-- $4E `LSR abs` (R211, R133). -/
  | lsrAbs (abs : Word)
  /-- $4F `EOR long` (R196, R137). -/
  | eorLong (long : Addr)
  /-- $50 `BVC label` (R243, R153). -/
  | bvc (rel : Byte)
  /-- $51 `EOR (dp),Y` (R196, R145). -/
  | eorDpIndY (dp : Byte)
  /-- $52 `EOR (dp)` (R196, R143). -/
  | eorDpInd (dp : Byte)
  /-- $53 `EOR (sr,S),Y` (R196, R152). -/
  | eorSrIndY (sr : Byte)
  /-- $54 `MVN #srcbank,#dstbank` (R300, R155). -/
  | mvn (dst : Byte) (src : Byte)
  /-- $55 `EOR dp,X` (R196, R141). -/
  | eorDpX (dp : Byte)
  /-- $56 `LSR dp,X` (R211, R141). -/
  | lsrDpX (dp : Byte)
  /-- $57 `EOR [dp],Y` (R196, R147). -/
  | eorDpIndLongY (dp : Byte)
  /-- $59 `EOR abs,Y` (R196, R136). -/
  | eorAbsY (abs : Word)
  /-- $5C `JML long` (R254, R138). -/
  | jmlLong (long : Addr)
  /-- $5D `EOR abs,X` (R196, R135). -/
  | eorAbsX (abs : Word)
  /-- $5E `LSR abs,X` (R211, R135). -/
  | lsrAbsX (abs : Word)
  /-- $5F `EOR long,X` (R196, R139). -/
  | eorLongX (long : Addr)
  /-- $61 `ADC (dp,X)` (R190, R144). -/
  | adcDpXInd (dp : Byte)
  /-- $62 `PER label` (R350, R154). -/
  | per (rell : Word)
  /-- $63 `ADC sr,S` (R190, R151). -/
  | adcSr (sr : Byte)
  /-- $64 `STZ dp` (R176, R140). -/
  | stzDp (dp : Byte)
  /-- $65 `ADC dp` (R190, R140). -/
  | adcDp (dp : Byte)
  /-- $66 `ROR dp` (R213, R140). -/
  | rorDp (dp : Byte)
  /-- $67 `ADC [dp]` (R190, R146). -/
  | adcDpIndLong (dp : Byte)
  /-- $69 `ADC #const` (R190, R132). -/
  | adcImm (imm : Imm)
  /-- $6C `JMP (abs)` (R252, R148). -/
  | jmpInd (abs : Word)
  /-- $6D `ADC abs` (R190, R133). -/
  | adcAbs (abs : Word)
  /-- $6E `ROR abs` (R213, R133). -/
  | rorAbs (abs : Word)
  /-- $6F `ADC long` (R190, R137). -/
  | adcLong (long : Addr)
  /-- $70 `BVS label` (R244, R153). -/
  | bvs (rel : Byte)
  /-- $71 `ADC (dp),Y` (R190, R145). -/
  | adcDpIndY (dp : Byte)
  /-- $72 `ADC (dp)` (R190, R143). -/
  | adcDpInd (dp : Byte)
  /-- $73 `ADC (sr,S),Y` (R190, R152). -/
  | adcSrIndY (sr : Byte)
  /-- $74 `STZ dp,X` (R176, R141). -/
  | stzDpX (dp : Byte)
  /-- $75 `ADC dp,X` (R190, R141). -/
  | adcDpX (dp : Byte)
  /-- $76 `ROR dp,X` (R213, R141). -/
  | rorDpX (dp : Byte)
  /-- $77 `ADC [dp],Y` (R190, R147). -/
  | adcDpIndLongY (dp : Byte)
  /-- $79 `ADC abs,Y` (R190, R136). -/
  | adcAbsY (abs : Word)
  /-- $7C `JMP (abs,X)` (R253, R149). -/
  | jmpIndX (abs : Word)
  /-- $7D `ADC abs,X` (R190, R135). -/
  | adcAbsX (abs : Word)
  /-- $7E `ROR abs,X` (R213, R135). -/
  | rorAbsX (abs : Word)
  /-- $7F `ADC long,X` (R190, R139). -/
  | adcLongX (long : Addr)
  /-- $80 `BRA label` (R249, R153). -/
  | bra (rel : Byte)
  /-- $81 `STA (dp,X)` (R173, R144). -/
  | staDpXInd (dp : Byte)
  /-- $82 `BRL label` (R250, R154). -/
  | brl (rell : Word)
  /-- $83 `STA sr,S` (R173, R151). -/
  | staSr (sr : Byte)
  /-- $84 `STY dp` (R175, R140). -/
  | styDp (dp : Byte)
  /-- $85 `STA dp` (R173, R140). -/
  | staDp (dp : Byte)
  /-- $86 `STX dp` (R174, R140). -/
  | stxDp (dp : Byte)
  /-- $87 `STA [dp]` (R173, R146). -/
  | staDpIndLong (dp : Byte)
  /-- $89 `BIT #const` (R310, R132). -/
  | bitImm (imm : Imm)
  /-- $8C `STY abs` (R175, R133). -/
  | styAbs (abs : Word)
  /-- $8D `STA abs` (R173, R133). -/
  | staAbs (abs : Word)
  /-- $8E `STX abs` (R174, R133). -/
  | stxAbs (abs : Word)
  /-- $8F `STA long` (R173, R137). -/
  | staLong (long : Addr)
  /-- $90 `BCC label` (R245, R153). -/
  | bcc (rel : Byte)
  /-- $91 `STA (dp),Y` (R173, R145). -/
  | staDpIndY (dp : Byte)
  /-- $92 `STA (dp)` (R173, R143). -/
  | staDpInd (dp : Byte)
  /-- $93 `STA (sr,S),Y` (R173, R152). -/
  | staSrIndY (sr : Byte)
  /-- $94 `STY dp,X` (R175, R141). -/
  | styDpX (dp : Byte)
  /-- $95 `STA dp,X` (R173, R141). -/
  | staDpX (dp : Byte)
  /-- $96 `STX dp,Y` (R174, R142). -/
  | stxDpY (dp : Byte)
  /-- $97 `STA [dp],Y` (R173, R147). -/
  | staDpIndLongY (dp : Byte)
  /-- $99 `STA abs,Y` (R173, R136). -/
  | staAbsY (abs : Word)
  /-- $9C `STZ abs` (R176, R133). -/
  | stzAbs (abs : Word)
  /-- $9D `STA abs,X` (R173, R135). -/
  | staAbsX (abs : Word)
  /-- $9E `STZ abs,X` (R176, R135). -/
  | stzAbsX (abs : Word)
  /-- $9F `STA long,X` (R173, R139). -/
  | staLongX (long : Addr)
  /-- $A0 `LDY #const` (R172, R132). -/
  | ldyImm (imm : Imm)
  /-- $A1 `LDA (dp,X)` (R170, R144). -/
  | ldaDpXInd (dp : Byte)
  /-- $A2 `LDX #const` (R171, R132). -/
  | ldxImm (imm : Imm)
  /-- $A3 `LDA sr,S` (R170, R151). -/
  | ldaSr (sr : Byte)
  /-- $A4 `LDY dp` (R172, R140). -/
  | ldyDp (dp : Byte)
  /-- $A5 `LDA dp` (R170, R140). -/
  | ldaDp (dp : Byte)
  /-- $A6 `LDX dp` (R171, R140). -/
  | ldxDp (dp : Byte)
  /-- $A7 `LDA [dp]` (R170, R146). -/
  | ldaDpIndLong (dp : Byte)
  /-- $A9 `LDA #const` (R170, R132). -/
  | ldaImm (imm : Imm)
  /-- $AC `LDY abs` (R172, R133). -/
  | ldyAbs (abs : Word)
  /-- $AD `LDA abs` (R170, R133). -/
  | ldaAbs (abs : Word)
  /-- $AE `LDX abs` (R171, R133). -/
  | ldxAbs (abs : Word)
  /-- $AF `LDA long` (R170, R137). -/
  | ldaLong (long : Addr)
  /-- $B0 `BCS label` (R246, R153). -/
  | bcs (rel : Byte)
  /-- $B1 `LDA (dp),Y` (R170, R145). -/
  | ldaDpIndY (dp : Byte)
  /-- $B2 `LDA (dp)` (R170, R143). -/
  | ldaDpInd (dp : Byte)
  /-- $B3 `LDA (sr,S),Y` (R170, R152). -/
  | ldaSrIndY (sr : Byte)
  /-- $B4 `LDY dp,X` (R172, R141). -/
  | ldyDpX (dp : Byte)
  /-- $B5 `LDA dp,X` (R170, R141). -/
  | ldaDpX (dp : Byte)
  /-- $B6 `LDX dp,Y` (R171, R142). -/
  | ldxDpY (dp : Byte)
  /-- $B7 `LDA [dp],Y` (R170, R147). -/
  | ldaDpIndLongY (dp : Byte)
  /-- $B9 `LDA abs,Y` (R170, R136). -/
  | ldaAbsY (abs : Word)
  /-- $BC `LDY abs,X` (R172, R135). -/
  | ldyAbsX (abs : Word)
  /-- $BD `LDA abs,X` (R170, R135). -/
  | ldaAbsX (abs : Word)
  /-- $BE `LDX abs,Y` (R171, R136). -/
  | ldxAbsY (abs : Word)
  /-- $BF `LDA long,X` (R170, R139). -/
  | ldaLongX (long : Addr)
  /-- $C0 `CPY #const` (R228, R132). -/
  | cpyImm (imm : Imm)
  /-- $C1 `CMP (dp,X)` (R226, R144). -/
  | cmpDpXInd (dp : Byte)
  /-- $C2 `REP #const` (R320, R132). -/
  | rep (imm : Byte)
  /-- $C3 `CMP sr,S` (R226, R151). -/
  | cmpSr (sr : Byte)
  /-- $C4 `CPY dp` (R228, R140). -/
  | cpyDp (dp : Byte)
  /-- $C5 `CMP dp` (R226, R140). -/
  | cmpDp (dp : Byte)
  /-- $C6 `DEC dp` (R223, R140). -/
  | decDp (dp : Byte)
  /-- $C7 `CMP [dp]` (R226, R146). -/
  | cmpDpIndLong (dp : Byte)
  /-- $C9 `CMP #const` (R226, R132). -/
  | cmpImm (imm : Imm)
  /-- $CC `CPY abs` (R228, R133). -/
  | cpyAbs (abs : Word)
  /-- $CD `CMP abs` (R226, R133). -/
  | cmpAbs (abs : Word)
  /-- $CE `DEC abs` (R223, R133). -/
  | decAbs (abs : Word)
  /-- $CF `CMP long` (R226, R137). -/
  | cmpLong (long : Addr)
  /-- $D0 `BNE label` (R247, R153). -/
  | bne (rel : Byte)
  /-- $D1 `CMP (dp),Y` (R226, R145). -/
  | cmpDpIndY (dp : Byte)
  /-- $D2 `CMP (dp)` (R226, R143). -/
  | cmpDpInd (dp : Byte)
  /-- $D3 `CMP (sr,S),Y` (R226, R152). -/
  | cmpSrIndY (sr : Byte)
  /-- $D4 `PEI (dp)` (R349, R140). -/
  | pei (dp : Byte)
  /-- $D5 `CMP dp,X` (R226, R141). -/
  | cmpDpX (dp : Byte)
  /-- $D6 `DEC dp,X` (R223, R141). -/
  | decDpX (dp : Byte)
  /-- $D7 `CMP [dp],Y` (R226, R147). -/
  | cmpDpIndLongY (dp : Byte)
  /-- $D9 `CMP abs,Y` (R226, R136). -/
  | cmpAbsY (abs : Word)
  /-- $DC `JML [abs]` (R255, R150). -/
  | jmlInd (abs : Word)
  /-- $DD `CMP abs,X` (R226, R135). -/
  | cmpAbsX (abs : Word)
  /-- $DE `DEC abs,X` (R223, R135). -/
  | decAbsX (abs : Word)
  /-- $DF `CMP long,X` (R226, R139). -/
  | cmpLongX (long : Addr)
  /-- $E0 `CPX #const` (R227, R132). -/
  | cpxImm (imm : Imm)
  /-- $E1 `SBC (dp,X)` (R191, R144). -/
  | sbcDpXInd (dp : Byte)
  /-- $E2 `SEP #const` (R321, R132). -/
  | sep (imm : Byte)
  /-- $E3 `SBC sr,S` (R191, R151). -/
  | sbcSr (sr : Byte)
  /-- $E4 `CPX dp` (R227, R140). -/
  | cpxDp (dp : Byte)
  /-- $E5 `SBC dp` (R191, R140). -/
  | sbcDp (dp : Byte)
  /-- $E6 `INC dp` (R220, R140). -/
  | incDp (dp : Byte)
  /-- $E7 `SBC [dp]` (R191, R146). -/
  | sbcDpIndLong (dp : Byte)
  /-- $E9 `SBC #const` (R191, R132). -/
  | sbcImm (imm : Imm)
  /-- $EC `CPX abs` (R227, R133). -/
  | cpxAbs (abs : Word)
  /-- $ED `SBC abs` (R191, R133). -/
  | sbcAbs (abs : Word)
  /-- $EE `INC abs` (R220, R133). -/
  | incAbs (abs : Word)
  /-- $EF `SBC long` (R191, R137). -/
  | sbcLong (long : Addr)
  /-- $F0 `BEQ label` (R248, R153). -/
  | beq (rel : Byte)
  /-- $F1 `SBC (dp),Y` (R191, R145). -/
  | sbcDpIndY (dp : Byte)
  /-- $F2 `SBC (dp)` (R191, R143). -/
  | sbcDpInd (dp : Byte)
  /-- $F3 `SBC (sr,S),Y` (R191, R152). -/
  | sbcSrIndY (sr : Byte)
  /-- $F4 `PEA abs` (R348, R132). -/
  | pea (v : Word)
  /-- $F5 `SBC dp,X` (R191, R141). -/
  | sbcDpX (dp : Byte)
  /-- $F6 `INC dp,X` (R220, R141). -/
  | incDpX (dp : Byte)
  /-- $F7 `SBC [dp],Y` (R191, R147). -/
  | sbcDpIndLongY (dp : Byte)
  /-- $F9 `SBC abs,Y` (R191, R136). -/
  | sbcAbsY (abs : Word)
  /-- $FC `JSR (abs,X)` (R257, R149). -/
  | jsrIndX (abs : Word)
  /-- $FD `SBC abs,X` (R191, R135). -/
  | sbcAbsX (abs : Word)
  /-- $FE `INC abs,X` (R220, R135). -/
  | incAbsX (abs : Word)
  /-- $FF `SBC long,X` (R191, R139). -/
  | sbcLongX (long : Addr)
  /-- $08 `PHP` (R276, R157). -/
  | php
  /-- $0A `ASL A` (R210, R156). -/
  | aslAcc
  /-- $0B `PHD` (R274, R157). -/
  | phd
  /-- $18 `CLC` (R313, R157). -/
  | clc
  /-- $1A `INC A` (R220, R156). -/
  | incAcc
  /-- $1B `TCS` (R368, R157). -/
  | tcs
  /-- $28 `PLP` (R282, R157). -/
  | plp
  /-- $2A `ROL A` (R212, R156). -/
  | rolAcc
  /-- $2B `PLD` (R281, R157). -/
  | pld
  /-- $38 `SEC` (R314, R157). -/
  | sec
  /-- $3A `DEC A` (R223, R156). -/
  | decAcc
  /-- $3B `TSC` (R369, R157). -/
  | tsc
  /-- $40 `RTI` (R283, R157). -/
  | rti
  /-- $48 `PHA` (R270, R157). -/
  | pha
  /-- $4A `LSR A` (R211, R156). -/
  | lsrAcc
  /-- $4B `PHK` (R275, R157). -/
  | phk
  /-- $58 `CLI` (R317, R157). -/
  | cli
  /-- $5A `PHY` (R272, R157). -/
  | phy
  /-- $5B `TCD` (R366, R157). -/
  | tcd
  /-- $60 `RTS` (R284, R157). -/
  | rts
  /-- $68 `PLA` (R277, R157). -/
  | pla
  /-- $6A `ROR A` (R213, R156). -/
  | rorAcc
  /-- $6B `RTL` (R285, R157). -/
  | rtl
  /-- $78 `SEI` (R318, R157). -/
  | sei
  /-- $7A `PLY` (R279, R157). -/
  | ply
  /-- $7B `TDC` (R367, R157). -/
  | tdc
  /-- $88 `DEY` (R225, R157). -/
  | dey
  /-- $8A `TXA` (R362, R157). -/
  | txa
  /-- $8B `PHB` (R273, R157). -/
  | phb
  /-- $98 `TYA` (R363, R157). -/
  | tya
  /-- $9A `TXS` (R365, R157). -/
  | txs
  /-- $9B `TXY` (R370, R157). -/
  | txy
  /-- $A8 `TAY` (R361, R157). -/
  | tay
  /-- $AA `TAX` (R360, R157). -/
  | tax
  /-- $AB `PLB` (R280, R157). -/
  | plb
  /-- $B8 `CLV` (R319, R157). -/
  | clv
  /-- $BA `TSX` (R364, R157). -/
  | tsx
  /-- $BB `TYX` (R371, R157). -/
  | tyx
  /-- $C8 `INY` (R222, R157). -/
  | iny
  /-- $CA `DEX` (R224, R157). -/
  | dex
  /-- $CB `WAI` (R342, R157). -/
  | wai
  /-- $D8 `CLD` (R315, R157). -/
  | cld
  /-- $DA `PHX` (R271, R157). -/
  | phx
  /-- $DB `STP` (R343, R157). -/
  | stp
  /-- $E8 `INX` (R221, R157). -/
  | inx
  /-- $EA `NOP` (R347, R157). -/
  | nop
  /-- $EB `XBA` (R345, R157). -/
  | xba
  /-- $F8 `SED` (R316, R157). -/
  | sed
  /-- $FA `PLX` (R278, R157). -/
  | plx
  /-- $FB `XCE` (R344, R157). -/
  | xce
  deriving DecidableEq, Repr

end Sys2Proof
end

