-- ==== Sys2Proof/WellFormed.lean ====
section
/-!
DEFINITION. Which instruction terms a decoder can produce under the flags P.M and P.X (R102): the immediate of the eight
accumulator opcodes is one byte when P.M = 1 and two when P.M = 0, that of the four index opcodes follows P.X, and every
other operand value is legal (R108).
-/
namespace Sys2Proof

/-- The width a width flag selects: 1 means 8 bits (R9). -/
def widthOf (flag : Bool) : Width := if flag then .w8 else .w16

/-- The term is one that decoding under `P.M = m`, `P.X = x` yields (R102, R108). -/
def Instr.wellFormed (m x : Bool) : Instr → Bool
  | .oraImm imm => imm.width == widthOf m
  | .andImm imm => imm.width == widthOf m
  | .eorImm imm => imm.width == widthOf m
  | .adcImm imm => imm.width == widthOf m
  | .bitImm imm => imm.width == widthOf m
  | .ldaImm imm => imm.width == widthOf m
  | .cmpImm imm => imm.width == widthOf m
  | .sbcImm imm => imm.width == widthOf m
  | .ldyImm imm => imm.width == widthOf x
  | .ldxImm imm => imm.width == widthOf x
  | .cpyImm imm => imm.width == widthOf x
  | .cpxImm imm => imm.width == widthOf x
  | .brk _ | .oraDpXInd _ | .cop _ | .oraSr _ | .tsbDp _ | .oraDp _ | .aslDp _ | .oraDpIndLong _ | .php | .aslAcc
  | .phd | .tsbAbs _ | .oraAbs _ | .aslAbs _ | .oraLong _ | .bpl _ | .oraDpIndY _ | .oraDpInd _ | .oraSrIndY _
  | .trbDp _ | .oraDpX _ | .aslDpX _ | .oraDpIndLongY _ | .clc | .oraAbsY _ | .incAcc | .tcs | .trbAbs _ | .oraAbsX _
  | .aslAbsX _ | .oraLongX _ | .jsrAbs _ | .andDpXInd _ | .jsl _ | .andSr _ | .bitDp _ | .andDp _ | .rolDp _
  | .andDpIndLong _ | .plp | .rolAcc | .pld | .bitAbs _ | .andAbs _ | .rolAbs _ | .andLong _ | .bmi _ | .andDpIndY _
  | .andDpInd _ | .andSrIndY _ | .bitDpX _ | .andDpX _ | .rolDpX _ | .andDpIndLongY _ | .sec | .andAbsY _ | .decAcc
  | .tsc | .bitAbsX _ | .andAbsX _ | .rolAbsX _ | .andLongX _ | .rti | .eorDpXInd _ | .wdm _ | .eorSr _ | .mvp _ _
  | .eorDp _ | .lsrDp _ | .eorDpIndLong _ | .pha | .lsrAcc | .phk | .jmpAbs _ | .eorAbs _ | .lsrAbs _ | .eorLong _
  | .bvc _ | .eorDpIndY _ | .eorDpInd _ | .eorSrIndY _ | .mvn _ _ | .eorDpX _ | .lsrDpX _ | .eorDpIndLongY _ | .cli
  | .eorAbsY _ | .phy | .tcd | .jmlLong _ | .eorAbsX _ | .lsrAbsX _ | .eorLongX _ | .rts | .adcDpXInd _ | .per _
  | .adcSr _ | .stzDp _ | .adcDp _ | .rorDp _ | .adcDpIndLong _ | .pla | .rorAcc | .rtl | .jmpInd _ | .adcAbs _
  | .rorAbs _ | .adcLong _ | .bvs _ | .adcDpIndY _ | .adcDpInd _ | .adcSrIndY _ | .stzDpX _ | .adcDpX _ | .rorDpX _
  | .adcDpIndLongY _ | .sei | .adcAbsY _ | .ply | .tdc | .jmpIndX _ | .adcAbsX _ | .rorAbsX _ | .adcLongX _ | .bra _
  | .staDpXInd _ | .brl _ | .staSr _ | .styDp _ | .staDp _ | .stxDp _ | .staDpIndLong _ | .dey | .txa | .phb
  | .styAbs _ | .staAbs _ | .stxAbs _ | .staLong _ | .bcc _ | .staDpIndY _ | .staDpInd _ | .staSrIndY _ | .styDpX _
  | .staDpX _ | .stxDpY _ | .staDpIndLongY _ | .tya | .staAbsY _ | .txs | .txy | .stzAbs _ | .staAbsX _ | .stzAbsX _
  | .staLongX _ | .ldaDpXInd _ | .ldaSr _ | .ldyDp _ | .ldaDp _ | .ldxDp _ | .ldaDpIndLong _ | .tay | .tax | .plb
  | .ldyAbs _ | .ldaAbs _ | .ldxAbs _ | .ldaLong _ | .bcs _ | .ldaDpIndY _ | .ldaDpInd _ | .ldaSrIndY _ | .ldyDpX _
  | .ldaDpX _ | .ldxDpY _ | .ldaDpIndLongY _ | .clv | .ldaAbsY _ | .tsx | .tyx | .ldyAbsX _ | .ldaAbsX _ | .ldxAbsY _
  | .ldaLongX _ | .cmpDpXInd _ | .rep _ | .cmpSr _ | .cpyDp _ | .cmpDp _ | .decDp _ | .cmpDpIndLong _ | .iny | .dex
  | .wai | .cpyAbs _ | .cmpAbs _ | .decAbs _ | .cmpLong _ | .bne _ | .cmpDpIndY _ | .cmpDpInd _ | .cmpSrIndY _
  | .pei _ | .cmpDpX _ | .decDpX _ | .cmpDpIndLongY _ | .cld | .cmpAbsY _ | .phx | .stp | .jmlInd _ | .cmpAbsX _
  | .decAbsX _ | .cmpLongX _ | .sbcDpXInd _ | .sep _ | .sbcSr _ | .cpxDp _ | .sbcDp _ | .incDp _ | .sbcDpIndLong _
  | .inx | .nop | .xba | .cpxAbs _ | .sbcAbs _ | .incAbs _ | .sbcLong _ | .beq _ | .sbcDpIndY _ | .sbcDpInd _
  | .sbcSrIndY _ | .pea _ | .sbcDpX _ | .incDpX _ | .sbcDpIndLongY _ | .sed | .sbcAbsY _ | .plx | .xce | .jsrIndX _
  | .sbcAbsX _ | .incAbsX _ | .sbcLongX _ => true

end Sys2Proof
end

