-- ==== Sys2Proof/Machine/Ops.lean ====
section
/-!
DEFINITION. The named operations over registers and memory: status bits (R28), widths (R9), width-respecting writes (R40),
`SetP` (R39), byte and multi-byte accesses through MEM (R10, R66, R69), the stack (R68), the advance of PC (R104), interrupt
entry and return (R411 to R413), reset (R450).
-/
namespace Sys2Proof.Machine

/-- The outcome of a step of this machine. -/
abbrev Out := Host.Outcome State Fault Refusal

/-- The answer of an operation that reaches memory. -/
abbrev Acc (α : Type) := Except Refusal α

/-- An operation's answer as an outcome of the step. -/
def finish : Acc State → Out
  | .ok s => .next s
  | .error r => .refused r

/-! ### Status bits and widths -/

/-- `P.N` (R29). -/
def State.flagN (s : State) : Bool := s.p.getLsbD 7
/-- `P.V` (R30). -/
def State.flagV (s : State) : Bool := s.p.getLsbD 6
/-- `P.M` (R31). -/
def State.flagM (s : State) : Bool := s.p.getLsbD 5
/-- `P.X` (R32). -/
def State.flagX (s : State) : Bool := s.p.getLsbD 4
/-- `P.D` (R33). -/
def State.flagD (s : State) : Bool := s.p.getLsbD 3
/-- `P.I` (R34). -/
def State.flagI (s : State) : Bool := s.p.getLsbD 2
/-- `P.Z` (R35). -/
def State.flagZ (s : State) : Bool := s.p.getLsbD 1
/-- `P.C` (R36). -/
def State.flagC (s : State) : Bool := s.p.getLsbD 0

/-- Write `P.N`. -/
def State.setN (s : State) (b : Bool) : State := { s with p := setBit s.p 7 b }
/-- Write `P.V`. -/
def State.setV (s : State) (b : Bool) : State := { s with p := setBit s.p 6 b }
/-- Write `P.D`. -/
def State.setD (s : State) (b : Bool) : State := { s with p := setBit s.p 3 b }
/-- Write `P.I`. -/
def State.setI (s : State) (b : Bool) : State := { s with p := setBit s.p 2 b }
/-- Write `P.Z`. -/
def State.setZ (s : State) (b : Bool) : State := { s with p := setBit s.p 1 b }
/-- Write `P.C`. -/
def State.setC (s : State) (b : Bool) : State := { s with p := setBit s.p 0 b }

/-- `SetNZ(v, w)`: N is the top bit of `v`, Z says whether `v` is zero (R11). -/
def State.setNZ {w : Nat} (s : State) (v : BitVec w) : State := (s.setN v.msb).setZ (v == 0)

/-- `wA`: the accumulator and memory-operand width (R9, R31). -/
def State.wA (s : State) : Width := widthOf s.flagM
/-- `wI`: the index-register width (R9, R32). -/
def State.wI (s : State) : Width := widthOf s.flagX

/-- `Aw`: the accumulator at the width `w` (R9). -/
def State.accAt (s : State) (w : Width) : BitVec w.bits := s.c.setWidth w.bits
/-- `Xw`: `X[w-1:0]` (R9). -/
def State.xAt (s : State) (w : Width) : BitVec w.bits := s.x.setWidth w.bits
/-- `Yw`: `Y[w-1:0]` (R9). -/
def State.yAt (s : State) (w : Width) : BitVec w.bits := s.y.setWidth w.bits

/-- `WriteA(v)`: with P.M = 1 only `C[7:0]` changes (R40). -/
def State.writeA {w : Nat} (s : State) (v : BitVec w) : State :=
  { s with c := if s.flagM then word (hi s.c) (v.setWidth 8) else v.setWidth 16 }

/-- `WriteX(v)`: with P.X = 1 the high byte is zero (R40). -/
def State.writeX {w : Nat} (s : State) (v : BitVec w) : State :=
  { s with x := if s.flagX then word 0 (v.setWidth 8) else v.setWidth 16 }

/-- `WriteY(v)`: with P.X = 1 the high byte is zero (R40). -/
def State.writeY {w : Nat} (s : State) (v : BitVec w) : State :=
  { s with y := if s.flagX then word 0 (v.setWidth 8) else v.setWidth 16 }

/-- Clear the high bytes of X and Y when P.X is 1 (R22, R39). -/
def State.narrowIndex (s : State) : State :=
  if s.flagX then { s with x := word 0 (lo s.x), y := word 0 (lo s.y) } else s

/-- `SetP(v)`: in emulation mode bits 5 and 4 are forced to 1; a P.X that is 1 clears the index high bytes (R39). -/
def State.setP (s : State) (v : Byte) : State :=
  { s with p := if s.e then v ||| 0x30 else v }.narrowIndex

/-- Advance PC past `n` instruction bytes, inside the program bank (R27, R104). -/
def State.advance (s : State) (n : Nat) : State := { s with pc := s.pc + BitVec.ofNat 16 n }

/-! ### Memory accesses -/

/-- What MEM says of an address: the kind of the first region that holds it (R69; log 2, log 20). -/
def kindAt : List Region → Nat → Option RegionKind
  | [], _ => none
  | r :: rs, a => if r.base ≤ a ∧ a < r.base + r.size then some r.kind else kindAt rs a

/-- Accesses beside which the hardware may make dummy ones at or near their address (R70; log 24). -/
def dummyCycles : Access → Bool
  | .fetch | .vector | .stack | .operand => false
  | .pointer | .exposed => true

/-- A device region with these two marks takes an access of this kind (R70, U10). -/
def deviceTakes (k : Access) (readSideEffects dummiesHarmless : Bool) : Bool :=
  !(dummyCycles k && readSideEffects) || dummiesHarmless

/-- `Read8(a)` through MEM (R10, R69, R70; log 3, log 24). -/
def read8 (s : State) (k : Access) (a : Addr) : Acc Byte :=
  match kindAt s.memMap a.toNat with
  | some .ram => .ok (s.mem.get a.toNat)
  | some .rom => .ok (s.mem.get a.toNat)
  | some (.device effects harmless) =>
    if deviceTakes k effects harmless then .ok (Config.deviceByte s.deviceWrites s.draw k a) else .error (.deviceAccess a)
  | none => .error (.unmapped a)

/-- `Write8(a, v)` through MEM (R10, R69, R70; log 3, log 24). -/
def write8 (s : State) (k : Access) (a : Addr) (v : Byte) : Acc State :=
  match kindAt s.memMap a.toNat with
  | some .ram => .ok { s with mem := s.mem.set a.toNat v }
  | some .rom => .error (.romWrite a)
  | some (.device effects harmless) =>
    if deviceTakes k effects harmless then .ok { s with deviceWrites := (a.toNat, v) :: s.deviceWrites }
    else .error (.deviceAccess a)
  | none => .error (.unmapped a)

/-- An address function: where byte `i` of a datum lies (R10, R63). -/
abbrev EA := Nat → Addr

/-- `BankAddr(b, o)`: wraps inside bank `b` (R10). -/
def bankAddr (b : Byte) (o : Word) : EA := fun i => addr b (o + BitVec.ofNat 16 i)

/-- `Linear(a)`: carries into the bank byte, mod 2^24 (R10). -/
def linear (a : Addr) : EA := fun i => a + BitVec.ofNat 24 i

/-- Where the word of the vector at `$00:v` lies: vectors stay in bank 0 and wrap there (R61, R63, R410, D2). -/
def vectorEA (v : Word) : EA := bankAddr 0 v

/-- `ReadAt(ea, 2)`, low byte first (R10, R62, R66). -/
def read16 (s : State) (k : Access) (ea : EA) : Acc Word := do
  let l ← read8 s k (ea 0)
  let h ← read8 s k (ea 1)
  pure (word h l)

/-- `ReadAt(ea, 3)`: low, middle, bank byte (R10, R62, R66). -/
def read24 (s : State) (k : Access) (ea : EA) : Acc Addr := do
  let v ← read16 s k ea
  let b ← read8 s k (ea 2)
  pure (addr b v)

/-- `ReadAt(ea, n)` for a datum of width `w` (R10, R65). -/
def readW (s : State) (k : Access) (ea : EA) : (w : Width) → Acc (BitVec w.bits)
  | .w8 => read8 s k (ea 0)
  | .w16 => read16 s k ea

/-- The write of a store: low byte, then high byte (R66). -/
def storeW (s : State) (k : Access) (ea : EA) : (w : Width) → BitVec w.bits → Acc State
  | .w8, v => write8 s k (ea 0) v
  | .w16, v => do
    let s ← write8 s k (ea 0) (lo v)
    write8 s k (ea 1) (hi v)

/-- The write-back of a read-modify-write: high byte, then low byte (R66, R214). -/
def writeBackW (s : State) (ea : EA) : (w : Width) → BitVec w.bits → Acc State
  | .w8, v => write8 s .exposed (ea 0) v
  | .w16, v => do
    let s ← write8 s .exposed (ea 1) (hi v)
    write8 s .exposed (ea 0) (lo v)

/-! ### The stack -/

/-- The stack pointer `k` bytes further down: only SL moves in emulation mode (R23, R68). -/
def State.spDown (s : State) (k : Nat) : Word :=
  if s.e then word (hi s.s) (lo s.s - BitVec.ofNat 8 k) else s.s - BitVec.ofNat 16 k

/-- The stack pointer `k` bytes further up: only SL moves in emulation mode (R23, R68). -/
def State.spUp (s : State) (k : Nat) : Word :=
  if s.e then word (hi s.s) (lo s.s + BitVec.ofNat 8 k) else s.s + BitVec.ofNat 16 k

/-- `Push8(v)`: write at S, then decrement (R68). -/
def push8 (s : State) (v : Byte) : Acc State := do
  let s ← write8 s .stack (addr 0 s.s) v
  pure { s with s := s.spDown 1 }

/-- `Push16(v)`: high byte first (R68). -/
def push16 (s : State) (v : Word) : Acc State := do
  let s ← push8 s (hi v)
  push8 s (lo v)

/-- Push a value of width `w` (R65, R68). -/
def pushW (s : State) : (w : Width) → BitVec w.bits → Acc State
  | .w8, v => push8 s v
  | .w16, v => push16 s v

/-- `Pull8()`: increment S, then read (R68). -/
def pull8 (s : State) : Acc (Byte × State) := do
  let s := { s with s := s.spUp 1 }
  let v ← read8 s .stack (addr 0 s.s)
  pure (v, s)

/-- `Pull16()`: low byte first (R68). -/
def pull16 (s : State) : Acc (Word × State) := do
  let (l, s) ← pull8 s
  let (h, s) ← pull8 s
  pure (word h l, s)

/-- Pull a value of width `w` (R65, R68). -/
def pullW (s : State) : (w : Width) → Acc (BitVec w.bits × State)
  | .w8 => pull8 s
  | .w16 => pull16 s

/-! ### Interrupt entry, return, reset -/

/-- Bit 4 of the status byte pushed in emulation mode (R412). -/
def brkBit : Event → Bool
  | .brk => true
  | .cop => true
  | .irq => false
  | .nmi => false

/-- The status byte an interrupt pushes (R411, R412). -/
def pushedStatus (k : Event) (s : State) : Byte := if s.e then setBit s.p 4 (brkBit k) else s.p

/-- `Interrupt(k) with return address r`: the one entry sequence of BRK, COP, IRQ and NMI (R411; the vector's
bytes as D2 places them, log 7). -/
def interrupt (k : Event) (r : Word) (s : State) : Acc State := do
  let s ← if s.e then pure s else push8 s s.pbr
  let s ← push16 s r
  let s ← push8 s (pushedStatus k s)
  let s := { (s.setI true).setD false with pbr := 0x00 }
  let target ← read16 s .vector (vectorEA (vectorOf s.vectors s.e k))
  pure { s with pc := target }

/-- Return from interrupt: pull P through `SetP`, then PC, then in native mode PBR (R283, R413). -/
def returnFromInterrupt (s : State) : Acc State := do
  let (v, s) ← pull8 s
  let (target, s) ← pull16 (s.setP v)
  let s := { s with pc := target }
  if s.e then pure s
  else do
    let (b, s) ← pull8 s
    pure { s with pbr := b }

/-- Put the bytes of a list into `m`, in order, wherever MEM has RAM. -/
def putRam (map : List Region) : List (Addr × Byte) → Memory → Memory
  | [], m => m
  | (a, v) :: cells, m => putRam map cells (if kindAt map a.toNat = some .ram then m.set a.toNat v else m)

/-- `m` with all RAM replaced by the bytes of `cells`, RAM that `cells` leaves out reading as unlisted; ROM keeps its bytes
(R42, R450; log 6). -/
def redrawRam (map : List Region) (cells : List (Addr × Byte)) (m : Memory) : Memory :=
  putRam map cells (m.filter fun c => kindAt map c.1 != some .ram)

/-- `Reset()` at a boundary (R450): C, X[7:0], Y[7:0], SL, the flags N, V, Z, C and all RAM become free values (R5, R42;
log 6), and PC is the word that the vector holds in the memory after that. -/
def doReset (s : State) : Acc State := do
  let s := { s with
    c := Config.resetC s.draw
    x := word 0 (Config.resetXL s.draw)
    y := word 0 (Config.resetYL s.draw)
    s := word 0x01 (Config.resetSL s.draw)
    d := 0x0000
    dbr := 0x00
    pbr := 0x00
    p := (Config.resetNVZC s.draw &&& 0xC3) ||| 0x34
    e := true
    run := .running
    nmiPending := false
    mem := redrawRam s.memMap (Config.resetRam s.draw) s.mem }
  let target ← read16 s .vector (vectorEA s.vectors.emuReset)
  pure { s with pc := target }

end Sys2Proof.Machine
end

