-- ==== Sys2Proof/Machine/Flags.lean ====
section
/-!
DEFINITION. What the arithmetic, logical, shift and compare instructions compute, and their flags: the two-operand sums of
R190, R191, R197, the decimal sums of R192, R193, the shifts of R210 to R213, the compare of R226.
-/
namespace Sys2Proof.Machine

/-- A result of `w` bits with the carry and overflow an addition or subtraction writes. -/
structure Sum (w : Nat) where
  res : BitVec w
  carry : Bool
  overflow : Bool
  deriving DecidableEq, Repr

/-- Binary addition with carry (R190). -/
def addBinary {w : Nat} (a m : BitVec w) (cin : Bool) : Sum w :=
  let sum := a.toNat + m.toNat + cin.toNat
  let res := BitVec.ofNat w sum
  { res := res, carry := decide (2 ^ w ≤ sum), overflow := ((a ^^^ res) &&& (m ^^^ res)).msb }

/-- Binary subtraction with borrow: the addition of the one's complement (R191, R197). -/
def subBinary {w : Nat} (a m : BitVec w) (cin : Bool) : Sum w := addBinary a (~~~m) cin

/-- Decimal digit `d` of a bit pattern (R192). -/
def digit (v d : Nat) : Nat := v / 16 ^ d % 16

/-- The running values of the digit-serial decimal algorithms: the digits so far, the carry, the last digit sum before its
adjustment (R192, R193). -/
structure Decimal where
  res : Nat
  carry : Bool
  lastSum : Nat
  deriving DecidableEq, Repr

/-- Decimal addition of the `k` low digits (R192, the recommended instance of BCD_ADC; log 10). -/
def addDigits (a m : Nat) (cin : Bool) : Nat → Decimal
  | 0 => { res := 0, carry := cin, lastSum := 0 }
  | d + 1 =>
    let r := addDigits a m cin d
    let s := digit a d + digit m d + r.carry.toNat
    let t := if 9 < s then s + 6 else s
    { res := r.res + t % 16 * 16 ^ d, carry := decide (15 < t), lastSum := s }

/-- Decimal subtraction of the `k` low digits, `mc` the one's complement of the subtrahend: a digit sum of at most 15 is
lowered by 6 and its low four bits taken (R193, the recommended instance of BCD_SBC; log 10). -/
def subDigits (a mc : Nat) (cin : Bool) : Nat → Decimal
  | 0 => { res := 0, carry := cin, lastSum := 0 }
  | d + 1 =>
    let r := subDigits a mc cin d
    let s := digit a d + digit mc d + r.carry.toNat
    let t := if s ≤ 15 then (s + 10) % 16 else s
    { res := r.res + t % 16 * 16 ^ d, carry := decide (15 < t), lastSum := s }

/-- The overflow bit of the decimal algorithms: `(~(a ^ m) & (a ^ (s << 4d)))[w-1]` for the last digit `d = k - 1`
(R192, R193; log 10). -/
def decimalOverflow {w : Nat} (a m : BitVec w) (lastSum : Nat) : Bool :=
  (~~~(a ^^^ m) &&& (a ^^^ BitVec.ofNat w (lastSum * 16 ^ (w / 4 - 1)))).msb

/-- BCD_ADC (R192). -/
def addDecimal {w : Nat} (a m : BitVec w) (cin : Bool) : Sum w :=
  let r := addDigits a.toNat m.toNat cin (w / 4)
  { res := BitVec.ofNat w r.res, carry := r.carry, overflow := decimalOverflow a m r.lastSum }

/-- BCD_SBC (R193). -/
def subDecimal {w : Nat} (a m : BitVec w) (cin : Bool) : Sum w :=
  let r := subDigits a.toNat (~~~m).toNat cin (w / 4)
  { res := BitVec.ofNat w r.res, carry := r.carry, overflow := decimalOverflow a (~~~m) r.lastSum }

/-- What ADC computes: decimal when P.D is 1 (R190). -/
def adcSum {w : Nat} (dec : Bool) (a m : BitVec w) (cin : Bool) : Sum w :=
  if dec then addDecimal a m cin else addBinary a m cin

/-- What SBC computes: decimal when P.D is 1 (R191). -/
def sbcSum {w : Nat} (dec : Bool) (a m : BitVec w) (cin : Bool) : Sum w :=
  if dec then subDecimal a m cin else subBinary a m cin

/-- A shifted operand and the bit shifted out. -/
structure Shifted (w : Nat) where
  res : BitVec w
  carry : Bool
  deriving DecidableEq, Repr

/-- ASL (R210). -/
def shiftAsl {w : Nat} (v : BitVec w) (_cin : Bool) : Shifted w := { res := v <<< 1, carry := v.msb }

/-- LSR (R211). -/
def shiftLsr {w : Nat} (v : BitVec w) (_cin : Bool) : Shifted w := { res := v >>> 1, carry := v.getLsbD 0 }

/-- ROL (R212). -/
def shiftRol {w : Nat} (v : BitVec w) (cin : Bool) : Shifted w :=
  { res := (v <<< 1) ||| BitVec.ofNat w cin.toNat, carry := v.msb }

/-- ROR (R213). -/
def shiftRor {w : Nat} (v : BitVec w) (cin : Bool) : Shifted w :=
  { res := (v >>> 1) ||| (BitVec.ofNat w cin.toNat <<< (w - 1)), carry := v.getLsbD 0 }

/-- Write the result and the four flags of ADC and SBC (R190, R191). -/
def State.applySum {w : Nat} (s : State) (r : Sum w) : State :=
  (((s.setC r.carry).setV r.overflow).writeA r.res).setNZ r.res

/-- The flags of a compare of `a` with `m`: C says `a ≥ m` unsigned, N and Z describe the wrapped difference (R226). -/
def State.compare {w : Nat} (s : State) (a m : BitVec w) : State :=
  (s.setC (decide (m.toNat ≤ a.toNat))).setNZ (a - m)

/-- `P.Z` of BIT, TSB and TRB: whether `a & m` is zero (R310 to R312). -/
def State.testBits {w : Nat} (s : State) (a m : BitVec w) : State := s.setZ (a &&& m == 0)

end Sys2Proof.Machine
end

