-- ==== Sys2Proof/Machine/Operands.lean ====
section
/-!
DEFINITION. The addressing modes (31_addressing_modes.md): the address function of each of the fifteen memory modes, the
three kinds of operand an instruction takes (R158), the targets of jumps and branches.
-/
namespace Sys2Proof.Machine

/-- The memory addressing modes, with their operand bytes (R133 to R152). -/
inductive MemMode where
  /-- `$1234` (R133). -/
  | abs (a : Word)
  /-- `$1234,X` (R135). -/
  | absX (a : Word)
  /-- `$1234,Y` (R136). -/
  | absY (a : Word)
  /-- `$123456` (R137). -/
  | long (a : Addr)
  /-- `$123456,X` (R139). -/
  | longX (a : Addr)
  /-- `$12` (R140). -/
  | dp (o : Byte)
  /-- `$12,X` (R141). -/
  | dpX (o : Byte)
  /-- `$12,Y` (R142). -/
  | dpY (o : Byte)
  /-- `($12)` (R143). -/
  | dpInd (o : Byte)
  /-- `($12,X)` (R144). -/
  | dpXInd (o : Byte)
  /-- `($12),Y` (R145). -/
  | dpIndY (o : Byte)
  /-- `[$12]` (R146). -/
  | dpIndLong (o : Byte)
  /-- `[$12],Y` (R147). -/
  | dpIndLongY (o : Byte)
  /-- `$12,S` (R151). -/
  | sr (o : Byte)
  /-- `($12,S),Y` (R152). -/
  | srIndY (o : Byte)
  deriving DecidableEq, Repr

/-- Operand bytes of a memory mode (R101). -/
def MemMode.bytes : MemMode → Nat
  | .abs _ | .absX _ | .absY _ => 2
  | .long _ | .longX _ => 3
  | .dp _ | .dpX _ | .dpY _ | .dpInd _ | .dpXInd _ | .dpIndY _ | .dpIndLong _ | .dpIndLongY _ | .sr _ | .srIndY _ => 1

/-- How a load or a store reaches the operand of a mode: an indexed or indirect one beside dummy cycles (R70; log 24). -/
def MemMode.access : MemMode → Access
  | .abs _ | .long _ | .dp _ | .sr _ => .operand
  | .absX _ | .absY _ | .longX _ | .dpX _ | .dpY _ | .dpInd _ | .dpXInd _ | .dpIndY _ | .dpIndLong _ | .dpIndLongY _
  | .srIndY _ => .exposed

/-- `DPN(o)`: bank 0, mod 2^16, never page-wrapped (R130). -/
def dpn (s : State) (o : Nat) : EA := bankAddr 0 (s.d + BitVec.ofNat 16 o)

/-- `DPW(o)`: in emulation mode with `DL = 0` the address stays in the page `DH` (R130; log 8). -/
def dpw (s : State) (o : Nat) : EA :=
  if s.e && lo s.d == 0 && emuDpPageWrap
  then fun i => addr 0 (word (hi s.d) (BitVec.ofNat 8 (o + i)))
  else dpn s o

/-- `DBR : o` as a 24-bit base (R133). -/
def State.dataAddr (s : State) (o : Word) : Addr := addr s.dbr o

/-- The 24-bit base plus an index, carrying into the bank (R131, R135). -/
def indexed (a : Addr) (i : Word) : EA := linear (a + i.setWidth 24)

/-- The address function of a memory operand; the pointer of an indirect mode is read here (R133 to R152). -/
def MemMode.ea (s : State) : MemMode → Acc EA
  | .abs a => pure (linear (s.dataAddr a))
  | .absX a => pure (indexed (s.dataAddr a) s.x)
  | .absY a => pure (indexed (s.dataAddr a) s.y)
  | .long a => pure (linear a)
  | .longX a => pure (indexed a s.x)
  | .dp o => pure (dpw s o.toNat)
  | .dpX o => pure (dpw s (o.toNat + s.x.toNat))
  | .dpY o => pure (dpw s (o.toNat + s.y.toNat))
  | .dpInd o => do
    let ptr ← read16 s .pointer (dpw s o.toNat)
    pure (linear (s.dataAddr ptr))
  | .dpXInd o => do
    let ptr ← read16 s .pointer (dpw s (o.toNat + s.x.toNat))
    pure (linear (s.dataAddr ptr))
  | .dpIndY o => do
    let ptr ← read16 s .pointer (dpw s o.toNat)
    pure (indexed (s.dataAddr ptr) s.y)
  | .dpIndLong o => do
    let ptr ← read24 s .pointer (dpn s o.toNat)
    pure (linear ptr)
  | .dpIndLongY o => do
    let ptr ← read24 s .pointer (dpn s o.toNat)
    pure (indexed ptr s.y)
  | .sr o => pure (bankAddr 0 (s.s + o.setWidth 16))
  | .srIndY o => do
    let ptr ← read16 s .pointer (bankAddr 0 (s.s + o.setWidth 16))
    pure (indexed (s.dataAddr ptr) s.y)

/-- An operand that is read: an immediate or memory (R158). -/
inductive Source where
  | imm (v : Imm)
  | mem (m : MemMode)
  deriving DecidableEq, Repr

/-- An operand that is read and written back: the accumulator or memory (R156, R158). -/
inductive Target where
  | acc
  | mem (m : MemMode)
  deriving DecidableEq, Repr

/-- The length in bytes of an instruction with this source operand (R101, R102). -/
def Source.length : Source → Nat
  | .imm v => 1 + v.width.bytes
  | .mem m => 1 + m.bytes

/-- The length in bytes of an instruction with this read-and-written operand (R101). -/
def Target.length : Target → Nat
  | .acc => 1
  | .mem m => 1 + m.bytes

/-- An immediate as an operand of width `w` (R132; log 19). -/
def immAt (w : Width) : Imm → BitVec w.bits
  | .byte v => v.setWidth w.bits
  | .word v => v.setWidth w.bits

/-- `LoadOp`: the operand of width `w` (R158). -/
def Source.load (s : State) (w : Width) : Source → Acc (BitVec w.bits)
  | .imm v => pure (immAt w v)
  | .mem m => do
    let ea ← m.ea s
    readW s m.access ea w

/-- The target of a relative branch from the next instruction `pcn` (R153). -/
def relTarget (pcn : Word) (rel : Byte) : Word := pcn + sext16 rel

/-- The target of a long relative branch, and the value PER pushes (R154). -/
def relLongTarget (pcn rell : Word) : Word := pcn + rell

/-- The pointer of `JMP (abs)`, in bank 0 (R148). -/
def jumpPointer (s : State) (a : Word) : Acc Word := read16 s .pointer (bankAddr 0 a)

/-- The pointer of `JMP (abs,X)` and `JSR (abs,X)`, in the program bank (R149). -/
def jumpPointerX (s : State) (a : Word) : Acc Word := read16 s .pointer (bankAddr s.pbr (a + s.x))

/-- The pointer of `JML [abs]`, in bank 0 (R150). -/
def jumpPointerLong (s : State) (a : Word) : Acc Addr := read24 s .pointer (bankAddr 0 a)

end Sys2Proof.Machine
end

