-- ==== Sys2Proof/Machine/Boundary.lean ====
section
/-!
DEFINITION. What happens at a step boundary (R405, R406, R420): the platform inputs are sampled, and one event is chosen in
the order ABORT (refused), RESET, NMI, IRQ, wake-up, execution.
-/
namespace Sys2Proof.Machine

/-- The inputs of the coming boundary; nothing is asserted once the list is used up (R405; log 1). -/
def State.input (s : State) : Inputs := s.inputs.headD Inputs.quiet

/-- The boundary's inputs are taken, an NMI edge is latched, and the free values are drawn anew (R403, R405; log 6,
log 24). -/
def State.sample (s : State) : State :=
  { s with
    inputs := s.inputs.tail
    nmiPending := s.nmiPending || s.input.nmiEdge
    draw := s.draw + 1 }

/-- What a step does (R405). -/
inductive Action where
  /-- ABORT is asserted: the platform is refused (R404). -/
  | refuseAbort
  | reset
  | takeNmi
  | takeIrq
  /-- An asserted IRQ ends a wait without being taken, since P.I is 1 (R420). -/
  | wake
  /-- Stopped, or waiting for an interrupt. -/
  | idle
  | execute
  deriving DecidableEq, Repr

/-- The choice of R405 and R406, given the boundary's inputs and the state after they were sampled. -/
def chooseAction (i : Inputs) (s : State) : Action :=
  if i.abort then .refuseAbort
  else if i.reset then .reset
  else if s.run = .stopped then .idle
  else if s.nmiPending then .takeNmi
  else if i.irq && !s.flagI then .takeIrq
  else if s.run = .waiting then (if i.irq then .wake else .idle)
  else .execute

/-- NMI entry: the latch is cleared, the core runs, the return address is PC (R405, R411). -/
def enterNmi (s : State) : Acc State := interrupt .nmi s.pc { s with nmiPending := false, run := .running }

/-- IRQ entry: the core runs, the return address is PC (R405, R411). -/
def enterIrq (s : State) : Acc State := interrupt .irq s.pc { s with run := .running }

/-- A wait ends without vectoring (R405, R420). -/
def wakeUp (s : State) : State := { s with run := .running }

end Sys2Proof.Machine
end

