-- ==== Sys2Proof/Machine/Arith.lean ====
section
/-!
DEFINITION. Addition, subtraction and logic on the accumulator (41_arithmetic_logical.md).
-/
namespace Sys2Proof.Machine

/-- ADC (R190, R192). -/
def adc (o : Source) (s : State) : Acc State := do
  let m ← o.load s s.wA
  pure ((s.advance o.length).applySum (adcSum s.flagD (s.accAt s.wA) m s.flagC))

/-- SBC (R191, R193). -/
def sbc (o : Source) (s : State) : Acc State := do
  let m ← o.load s s.wA
  pure ((s.advance o.length).applySum (sbcSum s.flagD (s.accAt s.wA) m s.flagC))

/-- A logical operation on the accumulator: the result is written and sets N and Z (R194 to R196). -/
def logic (f : (w : Nat) → BitVec w → BitVec w → BitVec w) (o : Source) (s : State) : Acc State := do
  let m ← o.load s s.wA
  let res := f s.wA.bits (s.accAt s.wA) m
  pure (((s.advance o.length).writeA res).setNZ res)

/-- AND (R194). -/
def andOp (o : Source) (s : State) : Acc State := logic (fun _ a m => a &&& m) o s

/-- ORA (R195). -/
def ora (o : Source) (s : State) : Acc State := logic (fun _ a m => a ||| m) o s

/-- EOR (R196). -/
def eor (o : Source) (s : State) : Acc State := logic (fun _ a m => a ^^^ m) o s

/-- `ORA (dp,X)` (R195, R144). -/
def execOraDpXInd (dp : Byte) (s : State) : Out := finish (ora (.mem (.dpXInd dp)) s)

/-- `ORA sr,S` (R195, R151). -/
def execOraSr (sr : Byte) (s : State) : Out := finish (ora (.mem (.sr sr)) s)

/-- `ORA dp` (R195, R140). -/
def execOraDp (dp : Byte) (s : State) : Out := finish (ora (.mem (.dp dp)) s)

/-- `ORA [dp]` (R195, R146). -/
def execOraDpIndLong (dp : Byte) (s : State) : Out := finish (ora (.mem (.dpIndLong dp)) s)

/-- `ORA #const` (R195, R132). -/
def execOraImm (imm : Imm) (s : State) : Out := finish (ora (.imm imm) s)

/-- `ORA abs` (R195, R133). -/
def execOraAbs (abs : Word) (s : State) : Out := finish (ora (.mem (.abs abs)) s)

/-- `ORA long` (R195, R137). -/
def execOraLong (long : Addr) (s : State) : Out := finish (ora (.mem (.long long)) s)

/-- `ORA (dp),Y` (R195, R145). -/
def execOraDpIndY (dp : Byte) (s : State) : Out := finish (ora (.mem (.dpIndY dp)) s)

/-- `ORA (dp)` (R195, R143). -/
def execOraDpInd (dp : Byte) (s : State) : Out := finish (ora (.mem (.dpInd dp)) s)

/-- `ORA (sr,S),Y` (R195, R152). -/
def execOraSrIndY (sr : Byte) (s : State) : Out := finish (ora (.mem (.srIndY sr)) s)

/-- `ORA dp,X` (R195, R141). -/
def execOraDpX (dp : Byte) (s : State) : Out := finish (ora (.mem (.dpX dp)) s)

/-- `ORA [dp],Y` (R195, R147). -/
def execOraDpIndLongY (dp : Byte) (s : State) : Out := finish (ora (.mem (.dpIndLongY dp)) s)

/-- `ORA abs,Y` (R195, R136). -/
def execOraAbsY (abs : Word) (s : State) : Out := finish (ora (.mem (.absY abs)) s)

/-- `ORA abs,X` (R195, R135). -/
def execOraAbsX (abs : Word) (s : State) : Out := finish (ora (.mem (.absX abs)) s)

/-- `ORA long,X` (R195, R139). -/
def execOraLongX (long : Addr) (s : State) : Out := finish (ora (.mem (.longX long)) s)

/-- `AND (dp,X)` (R194, R144). -/
def execAndDpXInd (dp : Byte) (s : State) : Out := finish (andOp (.mem (.dpXInd dp)) s)

/-- `AND sr,S` (R194, R151). -/
def execAndSr (sr : Byte) (s : State) : Out := finish (andOp (.mem (.sr sr)) s)

/-- `AND dp` (R194, R140). -/
def execAndDp (dp : Byte) (s : State) : Out := finish (andOp (.mem (.dp dp)) s)

/-- `AND [dp]` (R194, R146). -/
def execAndDpIndLong (dp : Byte) (s : State) : Out := finish (andOp (.mem (.dpIndLong dp)) s)

/-- `AND #const` (R194, R132). -/
def execAndImm (imm : Imm) (s : State) : Out := finish (andOp (.imm imm) s)

/-- `AND abs` (R194, R133). -/
def execAndAbs (abs : Word) (s : State) : Out := finish (andOp (.mem (.abs abs)) s)

/-- `AND long` (R194, R137). -/
def execAndLong (long : Addr) (s : State) : Out := finish (andOp (.mem (.long long)) s)

/-- `AND (dp),Y` (R194, R145). -/
def execAndDpIndY (dp : Byte) (s : State) : Out := finish (andOp (.mem (.dpIndY dp)) s)

/-- `AND (dp)` (R194, R143). -/
def execAndDpInd (dp : Byte) (s : State) : Out := finish (andOp (.mem (.dpInd dp)) s)

/-- `AND (sr,S),Y` (R194, R152). -/
def execAndSrIndY (sr : Byte) (s : State) : Out := finish (andOp (.mem (.srIndY sr)) s)

/-- `AND dp,X` (R194, R141). -/
def execAndDpX (dp : Byte) (s : State) : Out := finish (andOp (.mem (.dpX dp)) s)

/-- `AND [dp],Y` (R194, R147). -/
def execAndDpIndLongY (dp : Byte) (s : State) : Out := finish (andOp (.mem (.dpIndLongY dp)) s)

/-- `AND abs,Y` (R194, R136). -/
def execAndAbsY (abs : Word) (s : State) : Out := finish (andOp (.mem (.absY abs)) s)

/-- `AND abs,X` (R194, R135). -/
def execAndAbsX (abs : Word) (s : State) : Out := finish (andOp (.mem (.absX abs)) s)

/-- `AND long,X` (R194, R139). -/
def execAndLongX (long : Addr) (s : State) : Out := finish (andOp (.mem (.longX long)) s)

/-- `EOR (dp,X)` (R196, R144). -/
def execEorDpXInd (dp : Byte) (s : State) : Out := finish (eor (.mem (.dpXInd dp)) s)

/-- `EOR sr,S` (R196, R151). -/
def execEorSr (sr : Byte) (s : State) : Out := finish (eor (.mem (.sr sr)) s)

/-- `EOR dp` (R196, R140). -/
def execEorDp (dp : Byte) (s : State) : Out := finish (eor (.mem (.dp dp)) s)

/-- `EOR [dp]` (R196, R146). -/
def execEorDpIndLong (dp : Byte) (s : State) : Out := finish (eor (.mem (.dpIndLong dp)) s)

/-- `EOR #const` (R196, R132). -/
def execEorImm (imm : Imm) (s : State) : Out := finish (eor (.imm imm) s)

/-- `EOR abs` (R196, R133). -/
def execEorAbs (abs : Word) (s : State) : Out := finish (eor (.mem (.abs abs)) s)

/-- `EOR long` (R196, R137). -/
def execEorLong (long : Addr) (s : State) : Out := finish (eor (.mem (.long long)) s)

/-- `EOR (dp),Y` (R196, R145). -/
def execEorDpIndY (dp : Byte) (s : State) : Out := finish (eor (.mem (.dpIndY dp)) s)

/-- `EOR (dp)` (R196, R143). -/
def execEorDpInd (dp : Byte) (s : State) : Out := finish (eor (.mem (.dpInd dp)) s)

/-- `EOR (sr,S),Y` (R196, R152). -/
def execEorSrIndY (sr : Byte) (s : State) : Out := finish (eor (.mem (.srIndY sr)) s)

/-- `EOR dp,X` (R196, R141). -/
def execEorDpX (dp : Byte) (s : State) : Out := finish (eor (.mem (.dpX dp)) s)

/-- `EOR [dp],Y` (R196, R147). -/
def execEorDpIndLongY (dp : Byte) (s : State) : Out := finish (eor (.mem (.dpIndLongY dp)) s)

/-- `EOR abs,Y` (R196, R136). -/
def execEorAbsY (abs : Word) (s : State) : Out := finish (eor (.mem (.absY abs)) s)

/-- `EOR abs,X` (R196, R135). -/
def execEorAbsX (abs : Word) (s : State) : Out := finish (eor (.mem (.absX abs)) s)

/-- `EOR long,X` (R196, R139). -/
def execEorLongX (long : Addr) (s : State) : Out := finish (eor (.mem (.longX long)) s)

/-- `ADC (dp,X)` (R190, R144). -/
def execAdcDpXInd (dp : Byte) (s : State) : Out := finish (adc (.mem (.dpXInd dp)) s)

/-- `ADC sr,S` (R190, R151). -/
def execAdcSr (sr : Byte) (s : State) : Out := finish (adc (.mem (.sr sr)) s)

/-- `ADC dp` (R190, R140). -/
def execAdcDp (dp : Byte) (s : State) : Out := finish (adc (.mem (.dp dp)) s)

/-- `ADC [dp]` (R190, R146). -/
def execAdcDpIndLong (dp : Byte) (s : State) : Out := finish (adc (.mem (.dpIndLong dp)) s)

/-- `ADC #const` (R190, R132). -/
def execAdcImm (imm : Imm) (s : State) : Out := finish (adc (.imm imm) s)

/-- `ADC abs` (R190, R133). -/
def execAdcAbs (abs : Word) (s : State) : Out := finish (adc (.mem (.abs abs)) s)

/-- `ADC long` (R190, R137). -/
def execAdcLong (long : Addr) (s : State) : Out := finish (adc (.mem (.long long)) s)

/-- `ADC (dp),Y` (R190, R145). -/
def execAdcDpIndY (dp : Byte) (s : State) : Out := finish (adc (.mem (.dpIndY dp)) s)

/-- `ADC (dp)` (R190, R143). -/
def execAdcDpInd (dp : Byte) (s : State) : Out := finish (adc (.mem (.dpInd dp)) s)

/-- `ADC (sr,S),Y` (R190, R152). -/
def execAdcSrIndY (sr : Byte) (s : State) : Out := finish (adc (.mem (.srIndY sr)) s)

/-- `ADC dp,X` (R190, R141). -/
def execAdcDpX (dp : Byte) (s : State) : Out := finish (adc (.mem (.dpX dp)) s)

/-- `ADC [dp],Y` (R190, R147). -/
def execAdcDpIndLongY (dp : Byte) (s : State) : Out := finish (adc (.mem (.dpIndLongY dp)) s)

/-- `ADC abs,Y` (R190, R136). -/
def execAdcAbsY (abs : Word) (s : State) : Out := finish (adc (.mem (.absY abs)) s)

/-- `ADC abs,X` (R190, R135). -/
def execAdcAbsX (abs : Word) (s : State) : Out := finish (adc (.mem (.absX abs)) s)

/-- `ADC long,X` (R190, R139). -/
def execAdcLongX (long : Addr) (s : State) : Out := finish (adc (.mem (.longX long)) s)

/-- `SBC (dp,X)` (R191, R144). -/
def execSbcDpXInd (dp : Byte) (s : State) : Out := finish (sbc (.mem (.dpXInd dp)) s)

/-- `SBC sr,S` (R191, R151). -/
def execSbcSr (sr : Byte) (s : State) : Out := finish (sbc (.mem (.sr sr)) s)

/-- `SBC dp` (R191, R140). -/
def execSbcDp (dp : Byte) (s : State) : Out := finish (sbc (.mem (.dp dp)) s)

/-- `SBC [dp]` (R191, R146). -/
def execSbcDpIndLong (dp : Byte) (s : State) : Out := finish (sbc (.mem (.dpIndLong dp)) s)

/-- `SBC #const` (R191, R132). -/
def execSbcImm (imm : Imm) (s : State) : Out := finish (sbc (.imm imm) s)

/-- `SBC abs` (R191, R133). -/
def execSbcAbs (abs : Word) (s : State) : Out := finish (sbc (.mem (.abs abs)) s)

/-- `SBC long` (R191, R137). -/
def execSbcLong (long : Addr) (s : State) : Out := finish (sbc (.mem (.long long)) s)

/-- `SBC (dp),Y` (R191, R145). -/
def execSbcDpIndY (dp : Byte) (s : State) : Out := finish (sbc (.mem (.dpIndY dp)) s)

/-- `SBC (dp)` (R191, R143). -/
def execSbcDpInd (dp : Byte) (s : State) : Out := finish (sbc (.mem (.dpInd dp)) s)

/-- `SBC (sr,S),Y` (R191, R152). -/
def execSbcSrIndY (sr : Byte) (s : State) : Out := finish (sbc (.mem (.srIndY sr)) s)

/-- `SBC dp,X` (R191, R141). -/
def execSbcDpX (dp : Byte) (s : State) : Out := finish (sbc (.mem (.dpX dp)) s)

/-- `SBC [dp],Y` (R191, R147). -/
def execSbcDpIndLongY (dp : Byte) (s : State) : Out := finish (sbc (.mem (.dpIndLongY dp)) s)

/-- `SBC abs,Y` (R191, R136). -/
def execSbcAbsY (abs : Word) (s : State) : Out := finish (sbc (.mem (.absY abs)) s)

/-- `SBC abs,X` (R191, R135). -/
def execSbcAbsX (abs : Word) (s : State) : Out := finish (sbc (.mem (.absX abs)) s)

/-- `SBC long,X` (R191, R139). -/
def execSbcLongX (long : Addr) (s : State) : Out := finish (sbc (.mem (.longX long)) s)

end Sys2Proof.Machine
end

