-- ==== Sys2Proof/Machine/BitFlags.lean ====
section
/-!
DEFINITION. Bit tests, bit manipulation and status flags (47_bit_and_status_flags.md).
-/
namespace Sys2Proof.Machine

/-- `BIT #const`: only Z is written (R310). -/
def bitImmediate (v : Imm) (s : State) : Acc State :=
  pure ((s.advance (1 + v.width.bytes)).testBits (s.accAt s.wA) (immAt s.wA v))

/-- BIT with a memory operand: N and V are its top two bits (R310). -/
def bit (m : MemMode) (s : State) : Acc State := do
  let ea ← m.ea s
  let v ← readW s m.access ea s.wA
  pure ((((s.advance (1 + m.bytes)).testBits (s.accAt s.wA) v).setN v.msb).setV (v.getLsbD (s.wA.bits - 2)))

/-- TSB and TRB: Z from the operand as read, then the changed operand is written back (R311, R312). -/
def testAndChange (f : (w : Nat) → BitVec w → BitVec w → BitVec w) (m : MemMode) (s : State) : Acc State := do
  let ea ← m.ea s
  let v ← readW s .exposed ea s.wA
  writeBackW ((s.advance (1 + m.bytes)).testBits (s.accAt s.wA) v) ea s.wA (f s.wA.bits v (s.accAt s.wA))

/-- TSB (R311). -/
def tsb (m : MemMode) (s : State) : Acc State := testAndChange (fun _ v a => v ||| a) m s

/-- TRB (R312). -/
def trb (m : MemMode) (s : State) : Acc State := testAndChange (fun _ v a => v &&& ~~~a) m s

/-- The single-flag instructions (R313 to R319). -/
def flagWrite (f : State → Bool → State) (b : Bool) (s : State) : Acc State := pure (f (s.advance 1) b)

/-- REP: the bits of `imm` are cleared, through `SetP` (R320). -/
def rep (imm : Byte) (s : State) : Acc State := pure ((s.advance 2).setP (s.p &&& ~~~imm))

/-- SEP: the bits of `imm` are set, through `SetP` (R321). -/
def sep (imm : Byte) (s : State) : Acc State := pure ((s.advance 2).setP (s.p ||| imm))

/-- `TSB dp` (R311, R140). -/
def execTsbDp (dp : Byte) (s : State) : Out := finish (tsb (.dp dp) s)

/-- `TSB abs` (R311, R133). -/
def execTsbAbs (abs : Word) (s : State) : Out := finish (tsb (.abs abs) s)

/-- `TRB dp` (R312, R140). -/
def execTrbDp (dp : Byte) (s : State) : Out := finish (trb (.dp dp) s)

/-- `CLC` (R313, R157). -/
def execClc (s : State) : Out := finish (flagWrite State.setC false s)

/-- `TRB abs` (R312, R133). -/
def execTrbAbs (abs : Word) (s : State) : Out := finish (trb (.abs abs) s)

/-- `BIT dp` (R310, R140). -/
def execBitDp (dp : Byte) (s : State) : Out := finish (bit (.dp dp) s)

/-- `BIT abs` (R310, R133). -/
def execBitAbs (abs : Word) (s : State) : Out := finish (bit (.abs abs) s)

/-- `BIT dp,X` (R310, R141). -/
def execBitDpX (dp : Byte) (s : State) : Out := finish (bit (.dpX dp) s)

/-- `SEC` (R314, R157). -/
def execSec (s : State) : Out := finish (flagWrite State.setC true s)

/-- `BIT abs,X` (R310, R135). -/
def execBitAbsX (abs : Word) (s : State) : Out := finish (bit (.absX abs) s)

/-- `CLI` (R317, R157). -/
def execCli (s : State) : Out := finish (flagWrite State.setI false s)

/-- `SEI` (R318, R157). -/
def execSei (s : State) : Out := finish (flagWrite State.setI true s)

/-- `BIT #const` (R310, R132). -/
def execBitImm (imm : Imm) (s : State) : Out := finish (bitImmediate imm s)

/-- `CLV` (R319, R157). -/
def execClv (s : State) : Out := finish (flagWrite State.setV false s)

/-- `REP #const` (R320, R132). -/
def execRep (imm : Byte) (s : State) : Out := finish (rep imm s)

/-- `CLD` (R315, R157). -/
def execCld (s : State) : Out := finish (flagWrite State.setD false s)

/-- `SEP #const` (R321, R132). -/
def execSep (imm : Byte) (s : State) : Out := finish (sep imm s)

/-- `SED` (R316, R157). -/
def execSed (s : State) : Out := finish (flagWrite State.setD true s)

end Sys2Proof.Machine
end

