-- ==== Sys2Proof/Machine/BlockMove.lean ====
section
/-!
DEFINITION. Block moves, one byte a step (46_block_move.md).
-/
namespace Sys2Proof.Machine

/-- One step of a block move: DBR takes the destination bank, one byte goes from `src:X` to `dst:Y`, `next` steps the index
registers at the width P.X selects, C counts down at 16 bits, and PC stays on the instruction until C is $FFFF
(R300, R301). -/
def blockMove (next : (w : Nat) → BitVec w → BitVec w) (dst src : Byte) (s : State) : Acc State := do
  let s := { s with dbr := dst }
  let v ← read8 s .operand (addr src s.x)
  let s ← write8 s .operand (addr dst s.y) v
  let s := (s.writeX (next s.wI.bits (s.xAt s.wI))).writeY (next s.wI.bits (s.yAt s.wI))
  let s := { s with c := s.c - 1 }
  pure (if s.c = 0xFFFF then s.advance 3 else s)

/-- `MVP #srcbank,#dstbank` (R301, R155). -/
def execMvp (dst : Byte) (src : Byte) (s : State) : Out := finish (blockMove (fun _ v => v - 1) dst src s)

/-- `MVN #srcbank,#dstbank` (R300, R155). -/
def execMvn (dst : Byte) (src : Byte) (s : State) : Out := finish (blockMove (fun _ v => v + 1) dst src s)

end Sys2Proof.Machine
end

