-- ==== Sys2Proof/Machine/Branch.lean ====
section
/-!
DEFINITION. Branches, jumps and subroutine calls (44_branch_jump.md). No flag changes; PBR changes only in the long forms.
-/
namespace Sys2Proof.Machine

/-- The common rule of the branches: taken when `cond` holds, counted from the next instruction (R240, R249). -/
def branch (cond : Bool) (rel : Byte) (s : State) : Acc State :=
  let n := s.advance 2
  pure (if cond then { n with pc := relTarget n.pc rel } else n)

/-- BRL (R250). -/
def branchLong (rell : Word) (s : State) : Acc State :=
  let n := s.advance 3
  pure { n with pc := relLongTarget n.pc rell }

/-- `JMP abs`: the target is in the program bank (R251). -/
def jump (a : Word) (s : State) : Acc State := pure { s with pc := a }

/-- `JMP (abs)` (R252). -/
def jumpInd (a : Word) (s : State) : Acc State := do
  let ptr ← jumpPointer s a
  pure { s with pc := ptr }

/-- `JMP (abs,X)` (R253). -/
def jumpIndX (a : Word) (s : State) : Acc State := do
  let ptr ← jumpPointerX s a
  pure { s with pc := ptr }

/-- `JML long` (R254). -/
def jumpLong (a : Addr) (s : State) : Acc State := pure { s with pc := offsetOf a, pbr := bankOf a }

/-- `JML [abs]` (R255). -/
def jumpIndLong (a : Word) (s : State) : Acc State := do
  let ptr ← jumpPointerLong s a
  pure { s with pc := offsetOf ptr, pbr := bankOf ptr }

/-- `JSR abs`: pushes the address of its own last byte (R256). -/
def callAbs (a : Word) (s : State) : Acc State := do
  let s ← push16 s (s.pc + 2)
  pure { s with pc := a }

/-- `JSR (abs,X)`: the push happens before the pointer is read (R257). -/
def callIndX (a : Word) (s : State) : Acc State := do
  let s ← push16 s (s.pc + 2)
  let ptr ← jumpPointerX s a
  pure { s with pc := ptr }

/-- JSL: pushes PBR, then the address of its own last byte (R258). -/
def callLong (a : Addr) (s : State) : Acc State := do
  let s ← push8 s s.pbr
  let s ← push16 s (s.pc + 3)
  pure { s with pc := offsetOf a, pbr := bankOf a }

/-- `BPL label` (R241, R153). -/
def execBpl (rel : Byte) (s : State) : Out := finish (branch (!s.flagN) rel s)

/-- `JSR abs` (R256, R134). -/
def execJsrAbs (abs : Word) (s : State) : Out := finish (callAbs abs s)

/-- `JSL long` (R258, R138). -/
def execJsl (long : Addr) (s : State) : Out := finish (callLong long s)

/-- `BMI label` (R242, R153). -/
def execBmi (rel : Byte) (s : State) : Out := finish (branch s.flagN rel s)

/-- `JMP abs` (R251, R134). -/
def execJmpAbs (abs : Word) (s : State) : Out := finish (jump abs s)

/-- `BVC label` (R243, R153). -/
def execBvc (rel : Byte) (s : State) : Out := finish (branch (!s.flagV) rel s)

/-- `JML long` (R254, R138). -/
def execJmlLong (long : Addr) (s : State) : Out := finish (jumpLong long s)

/-- `JMP (abs)` (R252, R148). -/
def execJmpInd (abs : Word) (s : State) : Out := finish (jumpInd abs s)

/-- `BVS label` (R244, R153). -/
def execBvs (rel : Byte) (s : State) : Out := finish (branch s.flagV rel s)

/-- `JMP (abs,X)` (R253, R149). -/
def execJmpIndX (abs : Word) (s : State) : Out := finish (jumpIndX abs s)

/-- `BRA label` (R249, R153). -/
def execBra (rel : Byte) (s : State) : Out := finish (branch true rel s)

/-- `BRL label` (R250, R154). -/
def execBrl (rell : Word) (s : State) : Out := finish (branchLong rell s)

/-- `BCC label` (R245, R153). -/
def execBcc (rel : Byte) (s : State) : Out := finish (branch (!s.flagC) rel s)

/-- `BCS label` (R246, R153). -/
def execBcs (rel : Byte) (s : State) : Out := finish (branch s.flagC rel s)

/-- `BNE label` (R247, R153). -/
def execBne (rel : Byte) (s : State) : Out := finish (branch (!s.flagZ) rel s)

/-- `JML [abs]` (R255, R150). -/
def execJmlInd (abs : Word) (s : State) : Out := finish (jumpIndLong abs s)

/-- `BEQ label` (R248, R153). -/
def execBeq (rel : Byte) (s : State) : Out := finish (branch s.flagZ rel s)

/-- `JSR (abs,X)` (R257, R149). -/
def execJsrIndX (abs : Word) (s : State) : Out := finish (callIndX abs s)

end Sys2Proof.Machine
end

