-- ==== Sys2Proof/Machine/IncDecCmp.lean ====
section
/-!
DEFINITION. Increment, decrement and compare (43_inc_dec_compare.md).
-/
namespace Sys2Proof.Machine

/-- INC and DEC: the operand is read once, changed, written back, and sets N and Z (R214, R220, R223). -/
def modify (f : (w : Nat) → BitVec w → BitVec w) (t : Target) (s : State) : Acc State :=
  match t with
  | .acc =>
    let res := f s.wA.bits (s.accAt s.wA)
    pure (((s.advance t.length).writeA res).setNZ res)
  | .mem m => do
    let ea ← m.ea s
    let v ← readW s .exposed ea s.wA
    let res := f s.wA.bits v
    let s ← writeBackW (s.advance t.length) ea s.wA res
    pure (s.setNZ res)

/-- INC (R220). -/
def inc (t : Target) (s : State) : Acc State := modify (fun _ v => v + 1) t s

/-- DEC (R223). -/
def dec (t : Target) (s : State) : Acc State := modify (fun _ v => v - 1) t s

/-- INX (R221). -/
def inx (s : State) : Acc State :=
  let res := s.xAt s.wI + 1
  pure (((s.advance 1).writeX res).setNZ res)

/-- INY (R222). -/
def iny (s : State) : Acc State :=
  let res := s.yAt s.wI + 1
  pure (((s.advance 1).writeY res).setNZ res)

/-- DEX (R224). -/
def dex (s : State) : Acc State :=
  let res := s.xAt s.wI - 1
  pure (((s.advance 1).writeX res).setNZ res)

/-- DEY (R225). -/
def dey (s : State) : Acc State :=
  let res := s.yAt s.wI - 1
  pure (((s.advance 1).writeY res).setNZ res)

/-- CMP (R226). -/
def cmp (o : Source) (s : State) : Acc State := do
  let m ← o.load s s.wA
  pure ((s.advance o.length).compare (s.accAt s.wA) m)

/-- CPX (R227). -/
def cpx (o : Source) (s : State) : Acc State := do
  let m ← o.load s s.wI
  pure ((s.advance o.length).compare (s.xAt s.wI) m)

/-- CPY (R228). -/
def cpy (o : Source) (s : State) : Acc State := do
  let m ← o.load s s.wI
  pure ((s.advance o.length).compare (s.yAt s.wI) m)

/-- `INC A` (R220, R156). -/
def execIncAcc (s : State) : Out := finish (inc .acc s)

/-- `DEC A` (R223, R156). -/
def execDecAcc (s : State) : Out := finish (dec .acc s)

/-- `DEY` (R225, R157). -/
def execDey (s : State) : Out := finish (dey s)

/-- `CPY #const` (R228, R132). -/
def execCpyImm (imm : Imm) (s : State) : Out := finish (cpy (.imm imm) s)

/-- `CMP (dp,X)` (R226, R144). -/
def execCmpDpXInd (dp : Byte) (s : State) : Out := finish (cmp (.mem (.dpXInd dp)) s)

/-- `CMP sr,S` (R226, R151). -/
def execCmpSr (sr : Byte) (s : State) : Out := finish (cmp (.mem (.sr sr)) s)

/-- `CPY dp` (R228, R140). -/
def execCpyDp (dp : Byte) (s : State) : Out := finish (cpy (.mem (.dp dp)) s)

/-- `CMP dp` (R226, R140). -/
def execCmpDp (dp : Byte) (s : State) : Out := finish (cmp (.mem (.dp dp)) s)

/-- `DEC dp` (R223, R140). -/
def execDecDp (dp : Byte) (s : State) : Out := finish (dec (.mem (.dp dp)) s)

/-- `CMP [dp]` (R226, R146). -/
def execCmpDpIndLong (dp : Byte) (s : State) : Out := finish (cmp (.mem (.dpIndLong dp)) s)

/-- `INY` (R222, R157). -/
def execIny (s : State) : Out := finish (iny s)

/-- `CMP #const` (R226, R132). -/
def execCmpImm (imm : Imm) (s : State) : Out := finish (cmp (.imm imm) s)

/-- `DEX` (R224, R157). -/
def execDex (s : State) : Out := finish (dex s)

/-- `CPY abs` (R228, R133). -/
def execCpyAbs (abs : Word) (s : State) : Out := finish (cpy (.mem (.abs abs)) s)

/-- `CMP abs` (R226, R133). -/
def execCmpAbs (abs : Word) (s : State) : Out := finish (cmp (.mem (.abs abs)) s)

/-- `DEC abs` (R223, R133). -/
def execDecAbs (abs : Word) (s : State) : Out := finish (dec (.mem (.abs abs)) s)

/-- `CMP long` (R226, R137). -/
def execCmpLong (long : Addr) (s : State) : Out := finish (cmp (.mem (.long long)) s)

/-- `CMP (dp),Y` (R226, R145). -/
def execCmpDpIndY (dp : Byte) (s : State) : Out := finish (cmp (.mem (.dpIndY dp)) s)

/-- `CMP (dp)` (R226, R143). -/
def execCmpDpInd (dp : Byte) (s : State) : Out := finish (cmp (.mem (.dpInd dp)) s)

/-- `CMP (sr,S),Y` (R226, R152). -/
def execCmpSrIndY (sr : Byte) (s : State) : Out := finish (cmp (.mem (.srIndY sr)) s)

/-- `CMP dp,X` (R226, R141). -/
def execCmpDpX (dp : Byte) (s : State) : Out := finish (cmp (.mem (.dpX dp)) s)

/-- `DEC dp,X` (R223, R141). -/
def execDecDpX (dp : Byte) (s : State) : Out := finish (dec (.mem (.dpX dp)) s)

/-- `CMP [dp],Y` (R226, R147). -/
def execCmpDpIndLongY (dp : Byte) (s : State) : Out := finish (cmp (.mem (.dpIndLongY dp)) s)

/-- `CMP abs,Y` (R226, R136). -/
def execCmpAbsY (abs : Word) (s : State) : Out := finish (cmp (.mem (.absY abs)) s)

/-- `CMP abs,X` (R226, R135). -/
def execCmpAbsX (abs : Word) (s : State) : Out := finish (cmp (.mem (.absX abs)) s)

/-- `DEC abs,X` (R223, R135). -/
def execDecAbsX (abs : Word) (s : State) : Out := finish (dec (.mem (.absX abs)) s)

/-- `CMP long,X` (R226, R139). -/
def execCmpLongX (long : Addr) (s : State) : Out := finish (cmp (.mem (.longX long)) s)

/-- `CPX #const` (R227, R132). -/
def execCpxImm (imm : Imm) (s : State) : Out := finish (cpx (.imm imm) s)

/-- `CPX dp` (R227, R140). -/
def execCpxDp (dp : Byte) (s : State) : Out := finish (cpx (.mem (.dp dp)) s)

/-- `INC dp` (R220, R140). -/
def execIncDp (dp : Byte) (s : State) : Out := finish (inc (.mem (.dp dp)) s)

/-- `INX` (R221, R157). -/
def execInx (s : State) : Out := finish (inx s)

/-- `CPX abs` (R227, R133). -/
def execCpxAbs (abs : Word) (s : State) : Out := finish (cpx (.mem (.abs abs)) s)

/-- `INC abs` (R220, R133). -/
def execIncAbs (abs : Word) (s : State) : Out := finish (inc (.mem (.abs abs)) s)

/-- `INC dp,X` (R220, R141). -/
def execIncDpX (dp : Byte) (s : State) : Out := finish (inc (.mem (.dpX dp)) s)

/-- `INC abs,X` (R220, R135). -/
def execIncAbsX (abs : Word) (s : State) : Out := finish (inc (.mem (.absX abs)) s)

end Sys2Proof.Machine
end

