-- ==== Sys2Proof/Machine/LoadStore.lean ====
section
/-!
DEFINITION. Loads and stores (40_load_store.md).
-/
namespace Sys2Proof.Machine

/-- LDA (R170). -/
def lda (o : Source) (s : State) : Acc State := do
  let m ← o.load s s.wA
  pure (((s.advance o.length).writeA m).setNZ m)

/-- LDX (R171). -/
def ldx (o : Source) (s : State) : Acc State := do
  let m ← o.load s s.wI
  pure (((s.advance o.length).writeX m).setNZ m)

/-- LDY (R172). -/
def ldy (o : Source) (s : State) : Acc State := do
  let m ← o.load s s.wI
  pure (((s.advance o.length).writeY m).setNZ m)

/-- `StoreOp` of a store: the `w`-bit value `v` to the operand (R158, R173). -/
def store (w : Width) (v : BitVec w.bits) (m : MemMode) (s : State) : Acc State := do
  let ea ← m.ea s
  storeW (s.advance (1 + m.bytes)) m.access ea w v

/-- STA (R173). -/
def sta (m : MemMode) (s : State) : Acc State := store s.wA (s.accAt s.wA) m s

/-- STX (R174). -/
def stx (m : MemMode) (s : State) : Acc State := store s.wI (s.xAt s.wI) m s

/-- STY (R175). -/
def sty (m : MemMode) (s : State) : Acc State := store s.wI (s.yAt s.wI) m s

/-- STZ: the width follows P.M (R176). -/
def stz (m : MemMode) (s : State) : Acc State := store s.wA 0 m s

/-- `STZ dp` (R176, R140). -/
def execStzDp (dp : Byte) (s : State) : Out := finish (stz (.dp dp) s)

/-- `STZ dp,X` (R176, R141). -/
def execStzDpX (dp : Byte) (s : State) : Out := finish (stz (.dpX dp) s)

/-- `STA (dp,X)` (R173, R144). -/
def execStaDpXInd (dp : Byte) (s : State) : Out := finish (sta (.dpXInd dp) s)

/-- `STA sr,S` (R173, R151). -/
def execStaSr (sr : Byte) (s : State) : Out := finish (sta (.sr sr) s)

/-- `STY dp` (R175, R140). -/
def execStyDp (dp : Byte) (s : State) : Out := finish (sty (.dp dp) s)

/-- `STA dp` (R173, R140). -/
def execStaDp (dp : Byte) (s : State) : Out := finish (sta (.dp dp) s)

/-- `STX dp` (R174, R140). -/
def execStxDp (dp : Byte) (s : State) : Out := finish (stx (.dp dp) s)

/-- `STA [dp]` (R173, R146). -/
def execStaDpIndLong (dp : Byte) (s : State) : Out := finish (sta (.dpIndLong dp) s)

/-- `STY abs` (R175, R133). -/
def execStyAbs (abs : Word) (s : State) : Out := finish (sty (.abs abs) s)

/-- `STA abs` (R173, R133). -/
def execStaAbs (abs : Word) (s : State) : Out := finish (sta (.abs abs) s)

/-- `STX abs` (R174, R133). -/
def execStxAbs (abs : Word) (s : State) : Out := finish (stx (.abs abs) s)

/-- `STA long` (R173, R137). -/
def execStaLong (long : Addr) (s : State) : Out := finish (sta (.long long) s)

/-- `STA (dp),Y` (R173, R145). -/
def execStaDpIndY (dp : Byte) (s : State) : Out := finish (sta (.dpIndY dp) s)

/-- `STA (dp)` (R173, R143). -/
def execStaDpInd (dp : Byte) (s : State) : Out := finish (sta (.dpInd dp) s)

/-- `STA (sr,S),Y` (R173, R152). -/
def execStaSrIndY (sr : Byte) (s : State) : Out := finish (sta (.srIndY sr) s)

/-- `STY dp,X` (R175, R141). -/
def execStyDpX (dp : Byte) (s : State) : Out := finish (sty (.dpX dp) s)

/-- `STA dp,X` (R173, R141). -/
def execStaDpX (dp : Byte) (s : State) : Out := finish (sta (.dpX dp) s)

/-- `STX dp,Y` (R174, R142). -/
def execStxDpY (dp : Byte) (s : State) : Out := finish (stx (.dpY dp) s)

/-- `STA [dp],Y` (R173, R147). -/
def execStaDpIndLongY (dp : Byte) (s : State) : Out := finish (sta (.dpIndLongY dp) s)

/-- `STA abs,Y` (R173, R136). -/
def execStaAbsY (abs : Word) (s : State) : Out := finish (sta (.absY abs) s)

/-- `STZ abs` (R176, R133). -/
def execStzAbs (abs : Word) (s : State) : Out := finish (stz (.abs abs) s)

/-- `STA abs,X` (R173, R135). -/
def execStaAbsX (abs : Word) (s : State) : Out := finish (sta (.absX abs) s)

/-- `STZ abs,X` (R176, R135). -/
def execStzAbsX (abs : Word) (s : State) : Out := finish (stz (.absX abs) s)

/-- `STA long,X` (R173, R139). -/
def execStaLongX (long : Addr) (s : State) : Out := finish (sta (.longX long) s)

/-- `LDY #const` (R172, R132). -/
def execLdyImm (imm : Imm) (s : State) : Out := finish (ldy (.imm imm) s)

/-- `LDA (dp,X)` (R170, R144). -/
def execLdaDpXInd (dp : Byte) (s : State) : Out := finish (lda (.mem (.dpXInd dp)) s)

/-- `LDX #const` (R171, R132). -/
def execLdxImm (imm : Imm) (s : State) : Out := finish (ldx (.imm imm) s)

/-- `LDA sr,S` (R170, R151). -/
def execLdaSr (sr : Byte) (s : State) : Out := finish (lda (.mem (.sr sr)) s)

/-- `LDY dp` (R172, R140). -/
def execLdyDp (dp : Byte) (s : State) : Out := finish (ldy (.mem (.dp dp)) s)

/-- `LDA dp` (R170, R140). -/
def execLdaDp (dp : Byte) (s : State) : Out := finish (lda (.mem (.dp dp)) s)

/-- `LDX dp` (R171, R140). -/
def execLdxDp (dp : Byte) (s : State) : Out := finish (ldx (.mem (.dp dp)) s)

/-- `LDA [dp]` (R170, R146). -/
def execLdaDpIndLong (dp : Byte) (s : State) : Out := finish (lda (.mem (.dpIndLong dp)) s)

/-- `LDA #const` (R170, R132). -/
def execLdaImm (imm : Imm) (s : State) : Out := finish (lda (.imm imm) s)

/-- `LDY abs` (R172, R133). -/
def execLdyAbs (abs : Word) (s : State) : Out := finish (ldy (.mem (.abs abs)) s)

/-- `LDA abs` (R170, R133). -/
def execLdaAbs (abs : Word) (s : State) : Out := finish (lda (.mem (.abs abs)) s)

/-- `LDX abs` (R171, R133). -/
def execLdxAbs (abs : Word) (s : State) : Out := finish (ldx (.mem (.abs abs)) s)

/-- `LDA long` (R170, R137). -/
def execLdaLong (long : Addr) (s : State) : Out := finish (lda (.mem (.long long)) s)

/-- `LDA (dp),Y` (R170, R145). -/
def execLdaDpIndY (dp : Byte) (s : State) : Out := finish (lda (.mem (.dpIndY dp)) s)

/-- `LDA (dp)` (R170, R143). -/
def execLdaDpInd (dp : Byte) (s : State) : Out := finish (lda (.mem (.dpInd dp)) s)

/-- `LDA (sr,S),Y` (R170, R152). -/
def execLdaSrIndY (sr : Byte) (s : State) : Out := finish (lda (.mem (.srIndY sr)) s)

/-- `LDY dp,X` (R172, R141). -/
def execLdyDpX (dp : Byte) (s : State) : Out := finish (ldy (.mem (.dpX dp)) s)

/-- `LDA dp,X` (R170, R141). -/
def execLdaDpX (dp : Byte) (s : State) : Out := finish (lda (.mem (.dpX dp)) s)

/-- `LDX dp,Y` (R171, R142). -/
def execLdxDpY (dp : Byte) (s : State) : Out := finish (ldx (.mem (.dpY dp)) s)

/-- `LDA [dp],Y` (R170, R147). -/
def execLdaDpIndLongY (dp : Byte) (s : State) : Out := finish (lda (.mem (.dpIndLongY dp)) s)

/-- `LDA abs,Y` (R170, R136). -/
def execLdaAbsY (abs : Word) (s : State) : Out := finish (lda (.mem (.absY abs)) s)

/-- `LDY abs,X` (R172, R135). -/
def execLdyAbsX (abs : Word) (s : State) : Out := finish (ldy (.mem (.absX abs)) s)

/-- `LDA abs,X` (R170, R135). -/
def execLdaAbsX (abs : Word) (s : State) : Out := finish (lda (.mem (.absX abs)) s)

/-- `LDX abs,Y` (R171, R136). -/
def execLdxAbsY (abs : Word) (s : State) : Out := finish (ldx (.mem (.absY abs)) s)

/-- `LDA long,X` (R170, R139). -/
def execLdaLongX (long : Addr) (s : State) : Out := finish (lda (.mem (.longX long)) s)

end Sys2Proof.Machine
end

