-- ==== Sys2Proof/Machine/Shift.lean ====
section
/-!
DEFINITION. Shifts and rotates (42_shift_rotate.md).
-/
namespace Sys2Proof.Machine

/-- A shift: the operand is read once, written back at the same place, the bit shifted out goes to C, N and Z describe the
result (R210 to R214). -/
def shift (f : (w : Nat) → BitVec w → Bool → Shifted w) (t : Target) (s : State) : Acc State :=
  match t with
  | .acc =>
    let r := f s.wA.bits (s.accAt s.wA) s.flagC
    pure ((((s.advance t.length).setC r.carry).writeA r.res).setNZ r.res)
  | .mem m => do
    let ea ← m.ea s
    let v ← readW s .exposed ea s.wA
    let r := f s.wA.bits v s.flagC
    let s ← writeBackW ((s.advance t.length).setC r.carry) ea s.wA r.res
    pure (s.setNZ r.res)

/-- ASL (R210). -/
def asl (t : Target) (s : State) : Acc State := shift (fun _ => shiftAsl) t s

/-- LSR (R211). -/
def lsr (t : Target) (s : State) : Acc State := shift (fun _ => shiftLsr) t s

/-- ROL (R212). -/
def rol (t : Target) (s : State) : Acc State := shift (fun _ => shiftRol) t s

/-- ROR (R213). -/
def ror (t : Target) (s : State) : Acc State := shift (fun _ => shiftRor) t s

/-- `ASL dp` (R210, R140). -/
def execAslDp (dp : Byte) (s : State) : Out := finish (asl (.mem (.dp dp)) s)

/-- `ASL A` (R210, R156). -/
def execAslAcc (s : State) : Out := finish (asl .acc s)

/-- `ASL abs` (R210, R133). -/
def execAslAbs (abs : Word) (s : State) : Out := finish (asl (.mem (.abs abs)) s)

/-- `ASL dp,X` (R210, R141). -/
def execAslDpX (dp : Byte) (s : State) : Out := finish (asl (.mem (.dpX dp)) s)

/-- `ASL abs,X` (R210, R135). -/
def execAslAbsX (abs : Word) (s : State) : Out := finish (asl (.mem (.absX abs)) s)

/-- `ROL dp` (R212, R140). -/
def execRolDp (dp : Byte) (s : State) : Out := finish (rol (.mem (.dp dp)) s)

/-- `ROL A` (R212, R156). -/
def execRolAcc (s : State) : Out := finish (rol .acc s)

/-- `ROL abs` (R212, R133). -/
def execRolAbs (abs : Word) (s : State) : Out := finish (rol (.mem (.abs abs)) s)

/-- `ROL dp,X` (R212, R141). -/
def execRolDpX (dp : Byte) (s : State) : Out := finish (rol (.mem (.dpX dp)) s)

/-- `ROL abs,X` (R212, R135). -/
def execRolAbsX (abs : Word) (s : State) : Out := finish (rol (.mem (.absX abs)) s)

/-- `LSR dp` (R211, R140). -/
def execLsrDp (dp : Byte) (s : State) : Out := finish (lsr (.mem (.dp dp)) s)

/-- `LSR A` (R211, R156). -/
def execLsrAcc (s : State) : Out := finish (lsr .acc s)

/-- `LSR abs` (R211, R133). -/
def execLsrAbs (abs : Word) (s : State) : Out := finish (lsr (.mem (.abs abs)) s)

/-- `LSR dp,X` (R211, R141). -/
def execLsrDpX (dp : Byte) (s : State) : Out := finish (lsr (.mem (.dpX dp)) s)

/-- `LSR abs,X` (R211, R135). -/
def execLsrAbsX (abs : Word) (s : State) : Out := finish (lsr (.mem (.absX abs)) s)

/-- `ROR dp` (R213, R140). -/
def execRorDp (dp : Byte) (s : State) : Out := finish (ror (.mem (.dp dp)) s)

/-- `ROR A` (R213, R156). -/
def execRorAcc (s : State) : Out := finish (ror .acc s)

/-- `ROR abs` (R213, R133). -/
def execRorAbs (abs : Word) (s : State) : Out := finish (ror (.mem (.abs abs)) s)

/-- `ROR dp,X` (R213, R141). -/
def execRorDpX (dp : Byte) (s : State) : Out := finish (ror (.mem (.dpX dp)) s)

/-- `ROR abs,X` (R213, R135). -/
def execRorAbsX (abs : Word) (s : State) : Out := finish (ror (.mem (.absX abs)) s)

end Sys2Proof.Machine
end

