-- ==== Sys2Proof/Machine/Stack.lean ====
section
/-!
DEFINITION. Pushes, pulls and returns (45_stack.md).
-/
namespace Sys2Proof.Machine

/-- PHA: one or two bytes by P.M (R270). -/
def pha (s : State) : Acc State := pushW (s.advance 1) s.wA (s.accAt s.wA)

/-- PHX: one or two bytes by P.X (R271). -/
def phx (s : State) : Acc State := pushW (s.advance 1) s.wI (s.xAt s.wI)

/-- PHY: one or two bytes by P.X (R272). -/
def phy (s : State) : Acc State := pushW (s.advance 1) s.wI (s.yAt s.wI)

/-- PHB (R273). -/
def phb (s : State) : Acc State := push8 (s.advance 1) s.dbr

/-- PHD: always two bytes (R274). -/
def phd (s : State) : Acc State := push16 (s.advance 1) s.d

/-- PHK (R275). -/
def phk (s : State) : Acc State := push8 (s.advance 1) s.pbr

/-- PHP (R276). -/
def php (s : State) : Acc State := push8 (s.advance 1) s.p

/-- PLA (R277). -/
def pla (s : State) : Acc State := do
  let (v, s) ← pullW (s.advance 1) s.wA
  pure ((s.writeA v).setNZ v)

/-- PLX (R278). -/
def plx (s : State) : Acc State := do
  let (v, s) ← pullW (s.advance 1) s.wI
  pure ((s.writeX v).setNZ v)

/-- PLY (R279). -/
def ply (s : State) : Acc State := do
  let (v, s) ← pullW (s.advance 1) s.wI
  pure ((s.writeY v).setNZ v)

/-- PLB: N and Z from the 8-bit value (R280). -/
def plb (s : State) : Acc State := do
  let (v, s) ← pull8 (s.advance 1)
  pure ({ s with dbr := v }.setNZ v)

/-- PLD: N and Z from the 16-bit value (R281). -/
def pld (s : State) : Acc State := do
  let (v, s) ← pull16 (s.advance 1)
  pure ({ s with d := v }.setNZ v)

/-- PLP (R282). -/
def plp (s : State) : Acc State := do
  let (v, s) ← pull8 (s.advance 1)
  pure (s.setP v)

/-- RTI (R283). -/
def rti (s : State) : Acc State := returnFromInterrupt (s.advance 1)

/-- RTS: one more than the pulled address, in the same bank (R284). -/
def rts (s : State) : Acc State := do
  let (v, s) ← pull16 (s.advance 1)
  pure { s with pc := v + 1 }

/-- RTL: one more than the pulled address, without a carry into the pulled bank (R285). -/
def rtl (s : State) : Acc State := do
  let (v, s) ← pull16 (s.advance 1)
  let (b, s) ← pull8 s
  pure { s with pc := v + 1, pbr := b }

/-- `PHP` (R276, R157). -/
def execPhp (s : State) : Out := finish (php s)

/-- `PHD` (R274, R157). -/
def execPhd (s : State) : Out := finish (phd s)

/-- `PLP` (R282, R157). -/
def execPlp (s : State) : Out := finish (plp s)

/-- `PLD` (R281, R157). -/
def execPld (s : State) : Out := finish (pld s)

/-- `RTI` (R283, R157). -/
def execRti (s : State) : Out := finish (rti s)

/-- `PHA` (R270, R157). -/
def execPha (s : State) : Out := finish (pha s)

/-- `PHK` (R275, R157). -/
def execPhk (s : State) : Out := finish (phk s)

/-- `PHY` (R272, R157). -/
def execPhy (s : State) : Out := finish (phy s)

/-- `RTS` (R284, R157). -/
def execRts (s : State) : Out := finish (rts s)

/-- `PLA` (R277, R157). -/
def execPla (s : State) : Out := finish (pla s)

/-- `RTL` (R285, R157). -/
def execRtl (s : State) : Out := finish (rtl s)

/-- `PLY` (R279, R157). -/
def execPly (s : State) : Out := finish (ply s)

/-- `PHB` (R273, R157). -/
def execPhb (s : State) : Out := finish (phb s)

/-- `PLB` (R280, R157). -/
def execPlb (s : State) : Out := finish (plb s)

/-- `PHX` (R271, R157). -/
def execPhx (s : State) : Out := finish (phx s)

/-- `PLX` (R278, R157). -/
def execPlx (s : State) : Out := finish (plx s)

end Sys2Proof.Machine
end

