-- ==== Sys2Proof/Machine/System.lean ====
section
/-!
DEFINITION. System and control instructions and the pushes of effective addresses (48_system_control_and_pea.md).
-/
namespace Sys2Proof.Machine

/-- BRK and COP: interrupt entry with the address after the signature byte (R340, R341). -/
def softInterrupt (k : Event) (s : State) : Acc State :=
  let n := s.advance 2
  interrupt k n.pc n

/-- WAI (R342). -/
def wai (s : State) : Acc State := pure { s.advance 1 with run := .waiting }

/-- STP (R343). -/
def stp (s : State) : Acc State := pure { s.advance 1 with run := .stopped }

/-- What being in emulation mode forces on the registers (R344, R38). -/
def State.forceEmulation (s : State) : State :=
  { s with p := s.p ||| 0x30, x := word 0 (lo s.x), y := word 0 (lo s.y), s := word 0x01 (lo s.s) }

/-- XCE: exchange C and E; in emulation mode force M, X, the index high bytes and SH (R344). -/
def xce (s : State) : Acc State :=
  let n := { (s.advance 1).setC s.e with e := s.flagC }
  pure (if n.e then n.forceEmulation else n)

/-- XBA: exchange the accumulator's bytes; N and Z from the new low byte (R345). -/
def xba (s : State) : Acc State :=
  let v := word (lo s.c) (hi s.c)
  pure ({ s.advance 1 with c := v }.setNZ (lo v))

/-- WDM and NOP: only PC moves (R346, R347; log 13). -/
def noOperation (length : Nat) (s : State) : Acc State := pure (s.advance length)

/-- PEA (R348). -/
def pea (v : Word) (s : State) : Acc State := push16 (s.advance 3) v

/-- PEI: pushes the word at `D + dp`, never page-wrapped (R349). -/
def pei (o : Byte) (s : State) : Acc State := do
  let v ← read16 s .operand (dpn s o.toNat)
  push16 (s.advance 2) v

/-- PER: pushes the address of the next instruction plus the offset (R350). -/
def per (rell : Word) (s : State) : Acc State :=
  let n := s.advance 3
  push16 n (relLongTarget n.pc rell)

/-- `BRK #const` (R340, R132). -/
def execBrk (_sig : Byte) (s : State) : Out := finish (softInterrupt .brk s)

/-- `COP #const` (R341, R132). -/
def execCop (_sig : Byte) (s : State) : Out := finish (softInterrupt .cop s)

/-- `WDM #const` (R346, R132). -/
def execWdm (_sig : Byte) (s : State) : Out := finish (noOperation 2 s)

/-- `PER label` (R350, R154). -/
def execPer (rell : Word) (s : State) : Out := finish (per rell s)

/-- `WAI` (R342, R157). -/
def execWai (s : State) : Out := finish (wai s)

/-- `PEI (dp)` (R349, R140). -/
def execPei (dp : Byte) (s : State) : Out := finish (pei dp s)

/-- `STP` (R343, R157). -/
def execStp (s : State) : Out := finish (stp s)

/-- `NOP` (R347, R157). -/
def execNop (s : State) : Out := finish (noOperation 1 s)

/-- `XBA` (R345, R157). -/
def execXba (s : State) : Out := finish (xba s)

/-- `PEA abs` (R348, R132). -/
def execPea (v : Word) (s : State) : Out := finish (pea v s)

/-- `XCE` (R344, R157). -/
def execXce (s : State) : Out := finish (xce s)

end Sys2Proof.Machine
end

