-- ==== Sys2Proof/Machine/Transfer.lean ====
section
/-!
DEFINITION. Register transfers; the width is that of the destination (49_register_transfer.md, R359).
-/
namespace Sys2Proof.Machine

/-- A transfer of `v` into X at the index width, with N and Z (R359, R360). -/
def toX (v : Word) (s : State) : Acc State :=
  let r : BitVec s.wI.bits := v.setWidth s.wI.bits
  pure (((s.advance 1).writeX r).setNZ r)

/-- A transfer of `v` into Y at the index width, with N and Z (R359, R361). -/
def toY (v : Word) (s : State) : Acc State :=
  let r : BitVec s.wI.bits := v.setWidth s.wI.bits
  pure (((s.advance 1).writeY r).setNZ r)

/-- A transfer of `v` into A at the accumulator width, with N and Z (R359, R362). -/
def toA (v : Word) (s : State) : Acc State :=
  let r : BitVec s.wA.bits := v.setWidth s.wA.bits
  pure (((s.advance 1).writeA r).setNZ r)

/-- A transfer of `v` into S, without flags: only SL in emulation mode (R365, R368). -/
def toS (v : Word) (s : State) : Acc State :=
  pure { s.advance 1 with s := if s.e then word (hi s.s) (lo v) else v }

/-- A transfer of `v` into all 16 bits of C, with N and Z from 16 bits (R367, R369). -/
def toC (v : Word) (s : State) : Acc State := pure ({ s.advance 1 with c := v }.setNZ v)

/-- TCD: all 16 bits; N and Z by the parameter TCD_SETS_NZ (R366; log 9). -/
def tcd (s : State) : Acc State :=
  let n := { s.advance 1 with d := s.c }
  pure (if tcdSetsNZ then n.setNZ s.c else n)

/-- TXY: X at the index width into Y (R370). -/
def txy (s : State) : Acc State := toY s.x s

/-- TYX: Y at the index width into X (R371). -/
def tyx (s : State) : Acc State := toX s.y s

/-- `TCS` (R368, R157). -/
def execTcs (s : State) : Out := finish (toS s.c s)

/-- `TSC` (R369, R157). -/
def execTsc (s : State) : Out := finish (toC s.s s)

/-- `TCD` (R366, R157). -/
def execTcd (s : State) : Out := finish (tcd s)

/-- `TDC` (R367, R157). -/
def execTdc (s : State) : Out := finish (toC s.d s)

/-- `TXA` (R362, R157). -/
def execTxa (s : State) : Out := finish (toA s.x s)

/-- `TYA` (R363, R157). -/
def execTya (s : State) : Out := finish (toA s.y s)

/-- `TXS` (R365, R157). -/
def execTxs (s : State) : Out := finish (toS s.x s)

/-- `TXY` (R370, R157). -/
def execTxy (s : State) : Out := finish (txy s)

/-- `TAY` (R361, R157). -/
def execTay (s : State) : Out := finish (toY s.c s)

/-- `TAX` (R360, R157). -/
def execTax (s : State) : Out := finish (toX s.c s)

/-- `TSX` (R364, R157). -/
def execTsx (s : State) : Out := finish (toX s.s s)

/-- `TYX` (R371, R157). -/
def execTyx (s : State) : Out := finish (tyx s)

end Sys2Proof.Machine
end

