-- ==== Sys2Proof/Machine/Dispatch.lean ====
section
/-!
DEFINITION. The meaning of every instruction: one arm per constructor of `Instr`.
-/
namespace Sys2Proof.Machine
open Sys2Proof

def exec (i : Instr) (s : State) : Host.Outcome State Fault Refusal :=
  match i with
  -- LoadStore.lean
  | .stzDp dp => Sys2Proof.Machine.execStzDp dp s
  | .stzDpX dp => Sys2Proof.Machine.execStzDpX dp s
  | .staDpXInd dp => Sys2Proof.Machine.execStaDpXInd dp s
  | .staSr sr => Sys2Proof.Machine.execStaSr sr s
  | .styDp dp => Sys2Proof.Machine.execStyDp dp s
  | .staDp dp => Sys2Proof.Machine.execStaDp dp s
  | .stxDp dp => Sys2Proof.Machine.execStxDp dp s
  | .staDpIndLong dp => Sys2Proof.Machine.execStaDpIndLong dp s
  | .styAbs abs => Sys2Proof.Machine.execStyAbs abs s
  | .staAbs abs => Sys2Proof.Machine.execStaAbs abs s
  | .stxAbs abs => Sys2Proof.Machine.execStxAbs abs s
  | .staLong long => Sys2Proof.Machine.execStaLong long s
  | .staDpIndY dp => Sys2Proof.Machine.execStaDpIndY dp s
  | .staDpInd dp => Sys2Proof.Machine.execStaDpInd dp s
  | .staSrIndY sr => Sys2Proof.Machine.execStaSrIndY sr s
  | .styDpX dp => Sys2Proof.Machine.execStyDpX dp s
  | .staDpX dp => Sys2Proof.Machine.execStaDpX dp s
  | .stxDpY dp => Sys2Proof.Machine.execStxDpY dp s
  | .staDpIndLongY dp => Sys2Proof.Machine.execStaDpIndLongY dp s
  | .staAbsY abs => Sys2Proof.Machine.execStaAbsY abs s
  | .stzAbs abs => Sys2Proof.Machine.execStzAbs abs s
  | .staAbsX abs => Sys2Proof.Machine.execStaAbsX abs s
  | .stzAbsX abs => Sys2Proof.Machine.execStzAbsX abs s
  | .staLongX long => Sys2Proof.Machine.execStaLongX long s
  | .ldyImm imm => Sys2Proof.Machine.execLdyImm imm s
  | .ldaDpXInd dp => Sys2Proof.Machine.execLdaDpXInd dp s
  | .ldxImm imm => Sys2Proof.Machine.execLdxImm imm s
  | .ldaSr sr => Sys2Proof.Machine.execLdaSr sr s
  | .ldyDp dp => Sys2Proof.Machine.execLdyDp dp s
  | .ldaDp dp => Sys2Proof.Machine.execLdaDp dp s
  | .ldxDp dp => Sys2Proof.Machine.execLdxDp dp s
  | .ldaDpIndLong dp => Sys2Proof.Machine.execLdaDpIndLong dp s
  | .ldaImm imm => Sys2Proof.Machine.execLdaImm imm s
  | .ldyAbs abs => Sys2Proof.Machine.execLdyAbs abs s
  | .ldaAbs abs => Sys2Proof.Machine.execLdaAbs abs s
  | .ldxAbs abs => Sys2Proof.Machine.execLdxAbs abs s
  | .ldaLong long => Sys2Proof.Machine.execLdaLong long s
  | .ldaDpIndY dp => Sys2Proof.Machine.execLdaDpIndY dp s
  | .ldaDpInd dp => Sys2Proof.Machine.execLdaDpInd dp s
  | .ldaSrIndY sr => Sys2Proof.Machine.execLdaSrIndY sr s
  | .ldyDpX dp => Sys2Proof.Machine.execLdyDpX dp s
  | .ldaDpX dp => Sys2Proof.Machine.execLdaDpX dp s
  | .ldxDpY dp => Sys2Proof.Machine.execLdxDpY dp s
  | .ldaDpIndLongY dp => Sys2Proof.Machine.execLdaDpIndLongY dp s
  | .ldaAbsY abs => Sys2Proof.Machine.execLdaAbsY abs s
  | .ldyAbsX abs => Sys2Proof.Machine.execLdyAbsX abs s
  | .ldaAbsX abs => Sys2Proof.Machine.execLdaAbsX abs s
  | .ldxAbsY abs => Sys2Proof.Machine.execLdxAbsY abs s
  | .ldaLongX long => Sys2Proof.Machine.execLdaLongX long s
  -- Arith.lean
  | .oraDpXInd dp => Sys2Proof.Machine.execOraDpXInd dp s
  | .oraSr sr => Sys2Proof.Machine.execOraSr sr s
  | .oraDp dp => Sys2Proof.Machine.execOraDp dp s
  | .oraDpIndLong dp => Sys2Proof.Machine.execOraDpIndLong dp s
  | .oraImm imm => Sys2Proof.Machine.execOraImm imm s
  | .oraAbs abs => Sys2Proof.Machine.execOraAbs abs s
  | .oraLong long => Sys2Proof.Machine.execOraLong long s
  | .oraDpIndY dp => Sys2Proof.Machine.execOraDpIndY dp s
  | .oraDpInd dp => Sys2Proof.Machine.execOraDpInd dp s
  | .oraSrIndY sr => Sys2Proof.Machine.execOraSrIndY sr s
  | .oraDpX dp => Sys2Proof.Machine.execOraDpX dp s
  | .oraDpIndLongY dp => Sys2Proof.Machine.execOraDpIndLongY dp s
  | .oraAbsY abs => Sys2Proof.Machine.execOraAbsY abs s
  | .oraAbsX abs => Sys2Proof.Machine.execOraAbsX abs s
  | .oraLongX long => Sys2Proof.Machine.execOraLongX long s
  | .andDpXInd dp => Sys2Proof.Machine.execAndDpXInd dp s
  | .andSr sr => Sys2Proof.Machine.execAndSr sr s
  | .andDp dp => Sys2Proof.Machine.execAndDp dp s
  | .andDpIndLong dp => Sys2Proof.Machine.execAndDpIndLong dp s
  | .andImm imm => Sys2Proof.Machine.execAndImm imm s
  | .andAbs abs => Sys2Proof.Machine.execAndAbs abs s
  | .andLong long => Sys2Proof.Machine.execAndLong long s
  | .andDpIndY dp => Sys2Proof.Machine.execAndDpIndY dp s
  | .andDpInd dp => Sys2Proof.Machine.execAndDpInd dp s
  | .andSrIndY sr => Sys2Proof.Machine.execAndSrIndY sr s
  | .andDpX dp => Sys2Proof.Machine.execAndDpX dp s
  | .andDpIndLongY dp => Sys2Proof.Machine.execAndDpIndLongY dp s
  | .andAbsY abs => Sys2Proof.Machine.execAndAbsY abs s
  | .andAbsX abs => Sys2Proof.Machine.execAndAbsX abs s
  | .andLongX long => Sys2Proof.Machine.execAndLongX long s
  | .eorDpXInd dp => Sys2Proof.Machine.execEorDpXInd dp s
  | .eorSr sr => Sys2Proof.Machine.execEorSr sr s
  | .eorDp dp => Sys2Proof.Machine.execEorDp dp s
  | .eorDpIndLong dp => Sys2Proof.Machine.execEorDpIndLong dp s
  | .eorImm imm => Sys2Proof.Machine.execEorImm imm s
  | .eorAbs abs => Sys2Proof.Machine.execEorAbs abs s
  | .eorLong long => Sys2Proof.Machine.execEorLong long s
  | .eorDpIndY dp => Sys2Proof.Machine.execEorDpIndY dp s
  | .eorDpInd dp => Sys2Proof.Machine.execEorDpInd dp s
  | .eorSrIndY sr => Sys2Proof.Machine.execEorSrIndY sr s
  | .eorDpX dp => Sys2Proof.Machine.execEorDpX dp s
  | .eorDpIndLongY dp => Sys2Proof.Machine.execEorDpIndLongY dp s
  | .eorAbsY abs => Sys2Proof.Machine.execEorAbsY abs s
  | .eorAbsX abs => Sys2Proof.Machine.execEorAbsX abs s
  | .eorLongX long => Sys2Proof.Machine.execEorLongX long s
  | .adcDpXInd dp => Sys2Proof.Machine.execAdcDpXInd dp s
  | .adcSr sr => Sys2Proof.Machine.execAdcSr sr s
  | .adcDp dp => Sys2Proof.Machine.execAdcDp dp s
  | .adcDpIndLong dp => Sys2Proof.Machine.execAdcDpIndLong dp s
  | .adcImm imm => Sys2Proof.Machine.execAdcImm imm s
  | .adcAbs abs => Sys2Proof.Machine.execAdcAbs abs s
  | .adcLong long => Sys2Proof.Machine.execAdcLong long s
  | .adcDpIndY dp => Sys2Proof.Machine.execAdcDpIndY dp s
  | .adcDpInd dp => Sys2Proof.Machine.execAdcDpInd dp s
  | .adcSrIndY sr => Sys2Proof.Machine.execAdcSrIndY sr s
  | .adcDpX dp => Sys2Proof.Machine.execAdcDpX dp s
  | .adcDpIndLongY dp => Sys2Proof.Machine.execAdcDpIndLongY dp s
  | .adcAbsY abs => Sys2Proof.Machine.execAdcAbsY abs s
  | .adcAbsX abs => Sys2Proof.Machine.execAdcAbsX abs s
  | .adcLongX long => Sys2Proof.Machine.execAdcLongX long s
  | .sbcDpXInd dp => Sys2Proof.Machine.execSbcDpXInd dp s
  | .sbcSr sr => Sys2Proof.Machine.execSbcSr sr s
  | .sbcDp dp => Sys2Proof.Machine.execSbcDp dp s
  | .sbcDpIndLong dp => Sys2Proof.Machine.execSbcDpIndLong dp s
  | .sbcImm imm => Sys2Proof.Machine.execSbcImm imm s
  | .sbcAbs abs => Sys2Proof.Machine.execSbcAbs abs s
  | .sbcLong long => Sys2Proof.Machine.execSbcLong long s
  | .sbcDpIndY dp => Sys2Proof.Machine.execSbcDpIndY dp s
  | .sbcDpInd dp => Sys2Proof.Machine.execSbcDpInd dp s
  | .sbcSrIndY sr => Sys2Proof.Machine.execSbcSrIndY sr s
  | .sbcDpX dp => Sys2Proof.Machine.execSbcDpX dp s
  | .sbcDpIndLongY dp => Sys2Proof.Machine.execSbcDpIndLongY dp s
  | .sbcAbsY abs => Sys2Proof.Machine.execSbcAbsY abs s
  | .sbcAbsX abs => Sys2Proof.Machine.execSbcAbsX abs s
  | .sbcLongX long => Sys2Proof.Machine.execSbcLongX long s
  -- Shift.lean
  | .aslDp dp => Sys2Proof.Machine.execAslDp dp s
  | .aslAcc => Sys2Proof.Machine.execAslAcc s
  | .aslAbs abs => Sys2Proof.Machine.execAslAbs abs s
  | .aslDpX dp => Sys2Proof.Machine.execAslDpX dp s
  | .aslAbsX abs => Sys2Proof.Machine.execAslAbsX abs s
  | .rolDp dp => Sys2Proof.Machine.execRolDp dp s
  | .rolAcc => Sys2Proof.Machine.execRolAcc s
  | .rolAbs abs => Sys2Proof.Machine.execRolAbs abs s
  | .rolDpX dp => Sys2Proof.Machine.execRolDpX dp s
  | .rolAbsX abs => Sys2Proof.Machine.execRolAbsX abs s
  | .lsrDp dp => Sys2Proof.Machine.execLsrDp dp s
  | .lsrAcc => Sys2Proof.Machine.execLsrAcc s
  | .lsrAbs abs => Sys2Proof.Machine.execLsrAbs abs s
  | .lsrDpX dp => Sys2Proof.Machine.execLsrDpX dp s
  | .lsrAbsX abs => Sys2Proof.Machine.execLsrAbsX abs s
  | .rorDp dp => Sys2Proof.Machine.execRorDp dp s
  | .rorAcc => Sys2Proof.Machine.execRorAcc s
  | .rorAbs abs => Sys2Proof.Machine.execRorAbs abs s
  | .rorDpX dp => Sys2Proof.Machine.execRorDpX dp s
  | .rorAbsX abs => Sys2Proof.Machine.execRorAbsX abs s
  -- IncDecCmp.lean
  | .incAcc => Sys2Proof.Machine.execIncAcc s
  | .decAcc => Sys2Proof.Machine.execDecAcc s
  | .dey => Sys2Proof.Machine.execDey s
  | .cpyImm imm => Sys2Proof.Machine.execCpyImm imm s
  | .cmpDpXInd dp => Sys2Proof.Machine.execCmpDpXInd dp s
  | .cmpSr sr => Sys2Proof.Machine.execCmpSr sr s
  | .cpyDp dp => Sys2Proof.Machine.execCpyDp dp s
  | .cmpDp dp => Sys2Proof.Machine.execCmpDp dp s
  | .decDp dp => Sys2Proof.Machine.execDecDp dp s
  | .cmpDpIndLong dp => Sys2Proof.Machine.execCmpDpIndLong dp s
  | .iny => Sys2Proof.Machine.execIny s
  | .cmpImm imm => Sys2Proof.Machine.execCmpImm imm s
  | .dex => Sys2Proof.Machine.execDex s
  | .cpyAbs abs => Sys2Proof.Machine.execCpyAbs abs s
  | .cmpAbs abs => Sys2Proof.Machine.execCmpAbs abs s
  | .decAbs abs => Sys2Proof.Machine.execDecAbs abs s
  | .cmpLong long => Sys2Proof.Machine.execCmpLong long s
  | .cmpDpIndY dp => Sys2Proof.Machine.execCmpDpIndY dp s
  | .cmpDpInd dp => Sys2Proof.Machine.execCmpDpInd dp s
  | .cmpSrIndY sr => Sys2Proof.Machine.execCmpSrIndY sr s
  | .cmpDpX dp => Sys2Proof.Machine.execCmpDpX dp s
  | .decDpX dp => Sys2Proof.Machine.execDecDpX dp s
  | .cmpDpIndLongY dp => Sys2Proof.Machine.execCmpDpIndLongY dp s
  | .cmpAbsY abs => Sys2Proof.Machine.execCmpAbsY abs s
  | .cmpAbsX abs => Sys2Proof.Machine.execCmpAbsX abs s
  | .decAbsX abs => Sys2Proof.Machine.execDecAbsX abs s
  | .cmpLongX long => Sys2Proof.Machine.execCmpLongX long s
  | .cpxImm imm => Sys2Proof.Machine.execCpxImm imm s
  | .cpxDp dp => Sys2Proof.Machine.execCpxDp dp s
  | .incDp dp => Sys2Proof.Machine.execIncDp dp s
  | .inx => Sys2Proof.Machine.execInx s
  | .cpxAbs abs => Sys2Proof.Machine.execCpxAbs abs s
  | .incAbs abs => Sys2Proof.Machine.execIncAbs abs s
  | .incDpX dp => Sys2Proof.Machine.execIncDpX dp s
  | .incAbsX abs => Sys2Proof.Machine.execIncAbsX abs s
  -- Branch.lean
  | .bpl rel => Sys2Proof.Machine.execBpl rel s
  | .jsrAbs abs => Sys2Proof.Machine.execJsrAbs abs s
  | .jsl long => Sys2Proof.Machine.execJsl long s
  | .bmi rel => Sys2Proof.Machine.execBmi rel s
  | .jmpAbs abs => Sys2Proof.Machine.execJmpAbs abs s
  | .bvc rel => Sys2Proof.Machine.execBvc rel s
  | .jmlLong long => Sys2Proof.Machine.execJmlLong long s
  | .jmpInd abs => Sys2Proof.Machine.execJmpInd abs s
  | .bvs rel => Sys2Proof.Machine.execBvs rel s
  | .jmpIndX abs => Sys2Proof.Machine.execJmpIndX abs s
  | .bra rel => Sys2Proof.Machine.execBra rel s
  | .brl rell => Sys2Proof.Machine.execBrl rell s
  | .bcc rel => Sys2Proof.Machine.execBcc rel s
  | .bcs rel => Sys2Proof.Machine.execBcs rel s
  | .bne rel => Sys2Proof.Machine.execBne rel s
  | .jmlInd abs => Sys2Proof.Machine.execJmlInd abs s
  | .beq rel => Sys2Proof.Machine.execBeq rel s
  | .jsrIndX abs => Sys2Proof.Machine.execJsrIndX abs s
  -- Stack.lean
  | .php => Sys2Proof.Machine.execPhp s
  | .phd => Sys2Proof.Machine.execPhd s
  | .plp => Sys2Proof.Machine.execPlp s
  | .pld => Sys2Proof.Machine.execPld s
  | .rti => Sys2Proof.Machine.execRti s
  | .pha => Sys2Proof.Machine.execPha s
  | .phk => Sys2Proof.Machine.execPhk s
  | .phy => Sys2Proof.Machine.execPhy s
  | .rts => Sys2Proof.Machine.execRts s
  | .pla => Sys2Proof.Machine.execPla s
  | .rtl => Sys2Proof.Machine.execRtl s
  | .ply => Sys2Proof.Machine.execPly s
  | .phb => Sys2Proof.Machine.execPhb s
  | .plb => Sys2Proof.Machine.execPlb s
  | .phx => Sys2Proof.Machine.execPhx s
  | .plx => Sys2Proof.Machine.execPlx s
  -- BlockMove.lean
  | .mvp dst src => Sys2Proof.Machine.execMvp dst src s
  | .mvn dst src => Sys2Proof.Machine.execMvn dst src s
  -- BitFlags.lean
  | .tsbDp dp => Sys2Proof.Machine.execTsbDp dp s
  | .tsbAbs abs => Sys2Proof.Machine.execTsbAbs abs s
  | .trbDp dp => Sys2Proof.Machine.execTrbDp dp s
  | .clc => Sys2Proof.Machine.execClc s
  | .trbAbs abs => Sys2Proof.Machine.execTrbAbs abs s
  | .bitDp dp => Sys2Proof.Machine.execBitDp dp s
  | .bitAbs abs => Sys2Proof.Machine.execBitAbs abs s
  | .bitDpX dp => Sys2Proof.Machine.execBitDpX dp s
  | .sec => Sys2Proof.Machine.execSec s
  | .bitAbsX abs => Sys2Proof.Machine.execBitAbsX abs s
  | .cli => Sys2Proof.Machine.execCli s
  | .sei => Sys2Proof.Machine.execSei s
  | .bitImm imm => Sys2Proof.Machine.execBitImm imm s
  | .clv => Sys2Proof.Machine.execClv s
  | .rep imm => Sys2Proof.Machine.execRep imm s
  | .cld => Sys2Proof.Machine.execCld s
  | .sep imm => Sys2Proof.Machine.execSep imm s
  | .sed => Sys2Proof.Machine.execSed s
  -- System.lean
  | .brk sig => Sys2Proof.Machine.execBrk sig s
  | .cop sig => Sys2Proof.Machine.execCop sig s
  | .wdm sig => Sys2Proof.Machine.execWdm sig s
  | .per rell => Sys2Proof.Machine.execPer rell s
  | .wai => Sys2Proof.Machine.execWai s
  | .pei dp => Sys2Proof.Machine.execPei dp s
  | .stp => Sys2Proof.Machine.execStp s
  | .nop => Sys2Proof.Machine.execNop s
  | .xba => Sys2Proof.Machine.execXba s
  | .pea v => Sys2Proof.Machine.execPea v s
  | .xce => Sys2Proof.Machine.execXce s
  -- Transfer.lean
  | .tcs => Sys2Proof.Machine.execTcs s
  | .tsc => Sys2Proof.Machine.execTsc s
  | .tcd => Sys2Proof.Machine.execTcd s
  | .tdc => Sys2Proof.Machine.execTdc s
  | .txa => Sys2Proof.Machine.execTxa s
  | .tya => Sys2Proof.Machine.execTya s
  | .txs => Sys2Proof.Machine.execTxs s
  | .txy => Sys2Proof.Machine.execTxy s
  | .tay => Sys2Proof.Machine.execTay s
  | .tax => Sys2Proof.Machine.execTax s
  | .tsx => Sys2Proof.Machine.execTsx s
  | .tyx => Sys2Proof.Machine.execTyx s

end Sys2Proof.Machine
end

