-- ==== Sys2Proof/Decode.lean ====
section
/-!
DEFINITION. Decoding and encoding (30_encoding.md). An instruction is one opcode byte and zero to three operand bytes
(R100, R101); the opcode byte alone selects the row of the map (R105), and P.M and P.X only the length of the twelve
immediates (R102). Operand bytes are little-endian (R103); a block move holds the destination bank first (R111).
-/
namespace Sys2Proof

/-- Why a byte sequence is rejected. -/
inductive DecodeError where
  /-- The bytes end before the instruction does. -/
  | truncated
  /-- No row of the map has this opcode: never the case, by R108. -/
  | unassigned (op : Byte)
  deriving DecidableEq, Repr

/-- The operand format of an opcode (R101, R102), with the instruction its operands make. -/
inductive Shape where
  | implied (i : Instr)
  | one (f : Byte → Instr)
  | two (f : Word → Instr)
  | three (f : Addr → Instr)
  /-- Immediate of accumulator width (by P.M). -/
  | immA (f : Imm → Instr)
  /-- Immediate of index width (by P.X). -/
  | immI (f : Imm → Instr)
  /-- Destination bank, source bank (R111). -/
  | banks (f : Byte → Byte → Instr)

/-- Row `0x` of the map of R105. -/
def opcodeRow0 : List Shape :=
  [.one .brk, .one .oraDpXInd, .one .cop, .one .oraSr, .one .tsbDp, .one .oraDp, .one .aslDp, .one .oraDpIndLong,
   .implied .php, .immA .oraImm, .implied .aslAcc, .implied .phd, .two .tsbAbs, .two .oraAbs, .two .aslAbs,
   .three .oraLong]

/-- Row `1x` of the map of R105. -/
def opcodeRow1 : List Shape :=
  [.one .bpl, .one .oraDpIndY, .one .oraDpInd, .one .oraSrIndY, .one .trbDp, .one .oraDpX, .one .aslDpX,
   .one .oraDpIndLongY, .implied .clc, .two .oraAbsY, .implied .incAcc, .implied .tcs, .two .trbAbs, .two .oraAbsX,
   .two .aslAbsX, .three .oraLongX]

/-- Row `2x` of the map of R105. -/
def opcodeRow2 : List Shape :=
  [.two .jsrAbs, .one .andDpXInd, .three .jsl, .one .andSr, .one .bitDp, .one .andDp, .one .rolDp,
   .one .andDpIndLong, .implied .plp, .immA .andImm, .implied .rolAcc, .implied .pld, .two .bitAbs, .two .andAbs,
   .two .rolAbs, .three .andLong]

/-- Row `3x` of the map of R105. -/
def opcodeRow3 : List Shape :=
  [.one .bmi, .one .andDpIndY, .one .andDpInd, .one .andSrIndY, .one .bitDpX, .one .andDpX, .one .rolDpX,
   .one .andDpIndLongY, .implied .sec, .two .andAbsY, .implied .decAcc, .implied .tsc, .two .bitAbsX, .two .andAbsX,
   .two .rolAbsX, .three .andLongX]

/-- Row `4x` of the map of R105. -/
def opcodeRow4 : List Shape :=
  [.implied .rti, .one .eorDpXInd, .one .wdm, .one .eorSr, .banks .mvp, .one .eorDp, .one .lsrDp, .one .eorDpIndLong,
   .implied .pha, .immA .eorImm, .implied .lsrAcc, .implied .phk, .two .jmpAbs, .two .eorAbs, .two .lsrAbs,
   .three .eorLong]

/-- Row `5x` of the map of R105. -/
def opcodeRow5 : List Shape :=
  [.one .bvc, .one .eorDpIndY, .one .eorDpInd, .one .eorSrIndY, .banks .mvn, .one .eorDpX, .one .lsrDpX,
   .one .eorDpIndLongY, .implied .cli, .two .eorAbsY, .implied .phy, .implied .tcd, .three .jmlLong, .two .eorAbsX,
   .two .lsrAbsX, .three .eorLongX]

/-- Row `6x` of the map of R105. -/
def opcodeRow6 : List Shape :=
  [.implied .rts, .one .adcDpXInd, .two .per, .one .adcSr, .one .stzDp, .one .adcDp, .one .rorDp, .one .adcDpIndLong,
   .implied .pla, .immA .adcImm, .implied .rorAcc, .implied .rtl, .two .jmpInd, .two .adcAbs, .two .rorAbs,
   .three .adcLong]

/-- Row `7x` of the map of R105. -/
def opcodeRow7 : List Shape :=
  [.one .bvs, .one .adcDpIndY, .one .adcDpInd, .one .adcSrIndY, .one .stzDpX, .one .adcDpX, .one .rorDpX,
   .one .adcDpIndLongY, .implied .sei, .two .adcAbsY, .implied .ply, .implied .tdc, .two .jmpIndX, .two .adcAbsX,
   .two .rorAbsX, .three .adcLongX]

/-- Row `8x` of the map of R105. -/
def opcodeRow8 : List Shape :=
  [.one .bra, .one .staDpXInd, .two .brl, .one .staSr, .one .styDp, .one .staDp, .one .stxDp, .one .staDpIndLong,
   .implied .dey, .immA .bitImm, .implied .txa, .implied .phb, .two .styAbs, .two .staAbs, .two .stxAbs,
   .three .staLong]

/-- Row `9x` of the map of R105. -/
def opcodeRow9 : List Shape :=
  [.one .bcc, .one .staDpIndY, .one .staDpInd, .one .staSrIndY, .one .styDpX, .one .staDpX, .one .stxDpY,
   .one .staDpIndLongY, .implied .tya, .two .staAbsY, .implied .txs, .implied .txy, .two .stzAbs, .two .staAbsX,
   .two .stzAbsX, .three .staLongX]

/-- Row `Ax` of the map of R105. -/
def opcodeRowA : List Shape :=
  [.immI .ldyImm, .one .ldaDpXInd, .immI .ldxImm, .one .ldaSr, .one .ldyDp, .one .ldaDp, .one .ldxDp,
   .one .ldaDpIndLong, .implied .tay, .immA .ldaImm, .implied .tax, .implied .plb, .two .ldyAbs, .two .ldaAbs,
   .two .ldxAbs, .three .ldaLong]

/-- Row `Bx` of the map of R105. -/
def opcodeRowB : List Shape :=
  [.one .bcs, .one .ldaDpIndY, .one .ldaDpInd, .one .ldaSrIndY, .one .ldyDpX, .one .ldaDpX, .one .ldxDpY,
   .one .ldaDpIndLongY, .implied .clv, .two .ldaAbsY, .implied .tsx, .implied .tyx, .two .ldyAbsX, .two .ldaAbsX,
   .two .ldxAbsY, .three .ldaLongX]

/-- Row `Cx` of the map of R105. -/
def opcodeRowC : List Shape :=
  [.immI .cpyImm, .one .cmpDpXInd, .one .rep, .one .cmpSr, .one .cpyDp, .one .cmpDp, .one .decDp, .one .cmpDpIndLong,
   .implied .iny, .immA .cmpImm, .implied .dex, .implied .wai, .two .cpyAbs, .two .cmpAbs, .two .decAbs,
   .three .cmpLong]

/-- Row `Dx` of the map of R105. -/
def opcodeRowD : List Shape :=
  [.one .bne, .one .cmpDpIndY, .one .cmpDpInd, .one .cmpSrIndY, .one .pei, .one .cmpDpX, .one .decDpX,
   .one .cmpDpIndLongY, .implied .cld, .two .cmpAbsY, .implied .phx, .implied .stp, .two .jmlInd, .two .cmpAbsX,
   .two .decAbsX, .three .cmpLongX]

/-- Row `Ex` of the map of R105. -/
def opcodeRowE : List Shape :=
  [.immI .cpxImm, .one .sbcDpXInd, .one .sep, .one .sbcSr, .one .cpxDp, .one .sbcDp, .one .incDp, .one .sbcDpIndLong,
   .implied .inx, .immA .sbcImm, .implied .nop, .implied .xba, .two .cpxAbs, .two .sbcAbs, .two .incAbs,
   .three .sbcLong]

/-- Row `Fx` of the map of R105. -/
def opcodeRowF : List Shape :=
  [.one .beq, .one .sbcDpIndY, .one .sbcDpInd, .one .sbcSrIndY, .two .pea, .one .sbcDpX, .one .incDpX,
   .one .sbcDpIndLongY, .implied .sed, .two .sbcAbsY, .implied .plx, .implied .xce, .two .jsrIndX, .two .sbcAbsX,
   .two .incAbsX, .three .sbcLongX]

/-- The opcode map: row by the high nibble, column by the low nibble (R105). -/
def opcodeRows : List (List Shape) :=
  [opcodeRow0, opcodeRow1, opcodeRow2, opcodeRow3, opcodeRow4, opcodeRow5, opcodeRow6, opcodeRow7] ++
  [opcodeRow8, opcodeRow9, opcodeRowA, opcodeRowB, opcodeRowC, opcodeRowD, opcodeRowE, opcodeRowF]

/-- The format of the opcode byte `op` (R105). -/
def shapeOf (op : Byte) : Option Shape :=
  (opcodeRows[op.toNat / 16]?).bind fun row => row[op.toNat % 16]?

/-- Operand bytes of an immediate whose width flag is `flag` (R102). -/
def immLength (flag : Bool) : Nat := (widthOf flag).bytes

/-- How many operand bytes follow an opcode of this format under the flags (R101, R102). -/
def Shape.operands (m x : Bool) : Shape → Nat
  | .implied _ => 0
  | .one _ => 1
  | .two _ => 2
  | .three _ => 3
  | .immA _ => immLength m
  | .immI _ => immLength x
  | .banks _ => 2

/-- The length in bytes of the instruction with opcode `op` under the current P.M and P.X (R102, R104). -/
def lengthOf (m x : Bool) (op : Byte) : Nat :=
  match shapeOf op with
  | some sh => 1 + sh.operands m x
  | none => 1

/-- Read an immediate whose width flag is `flag` (R102, R132). -/
def readImm (flag : Bool) (f : Imm → Instr) : List Byte → Except DecodeError (Instr × List Byte)
  | [] => .error .truncated
  | b1 :: rest =>
    if flag then .ok (f (.byte b1), rest)
    else match rest with
      | b2 :: rest => .ok (f (.word (word b2 b1)), rest)
      | [] => .error .truncated

/-- Assemble the operand bytes that follow the opcode (R103). -/
def Shape.read (m x : Bool) (bs : List Byte) : Shape → Except DecodeError (Instr × List Byte)
  | .implied i => .ok (i, bs)
  | .one f => match bs with
    | b1 :: rest => .ok (f b1, rest)
    | _ => .error .truncated
  | .two f => match bs with
    | b1 :: b2 :: rest => .ok (f (word b2 b1), rest)
    | _ => .error .truncated
  | .three f => match bs with
    | b1 :: b2 :: b3 :: rest => .ok (f (addr b3 (word b2 b1)), rest)
    | _ => .error .truncated
  | .immA f => readImm m f bs
  | .immI f => readImm x f bs
  | .banks f => match bs with
    | b1 :: b2 :: rest => .ok (f b1 b2, rest)
    | _ => .error .truncated

/-- Decode one instruction from the front of `bs` under `P.M = m` and `P.X = x` (R102, R104); the bytes after it come back. -/
def decode (m x : Bool) : List Byte → Except DecodeError (Instr × List Byte)
  | [] => .error .truncated
  | op :: rest =>
    match shapeOf op with
    | some sh => sh.read m x rest
    | none => .error (.unassigned op)

/-- The 32 bits of a table word as bytes, the first byte least significant. -/
def wordBytes (nbits w : Nat) : List Byte :=
  let v := w % 2 ^ nbits
  [BitVec.ofNat 8 v, BitVec.ofNat 8 (v / 2 ^ 8), BitVec.ofNat 8 (v / 2 ^ 16), BitVec.ofNat 8 (v / 2 ^ 24)]

/-- The instruction decoded from the `nbits` table bits `w`, with 8-bit widths as after reset (R42: P.M = P.X = 1), which is
the length the table gives the twelve immediates. -/
def decodeTableWord (nbits w : Nat) : Option Instr :=
  match decode true true (wordBytes nbits w) with
  | .ok (i, _) => some i
  | .error _ => none

/-- The operand bytes of a 16-bit operand, low byte first (R62, R103). -/
def bytes2 (v : Word) : List Byte := [lo v, hi v]

/-- The operand bytes of a 24-bit operand: low, middle, bank (R62, R103). -/
def bytes3 (a : Addr) : List Byte := [lo (offsetOf a), hi (offsetOf a), bankOf a]

/-- The operand bytes of an immediate (R102). -/
def immBytes : Imm → List Byte
  | .byte v => [v]
  | .word v => bytes2 v

/-- The bytes of an instruction (R101, R105). -/
def encode : Instr → List Byte
  | .brk sig => [0x00, sig]
  | .oraDpXInd dp => [0x01, dp]
  | .cop sig => [0x02, sig]
  | .oraSr sr => [0x03, sr]
  | .tsbDp dp => [0x04, dp]
  | .oraDp dp => [0x05, dp]
  | .aslDp dp => [0x06, dp]
  | .oraDpIndLong dp => [0x07, dp]
  | .php => [0x08]
  | .oraImm imm => 0x09 :: immBytes imm
  | .aslAcc => [0x0A]
  | .phd => [0x0B]
  | .tsbAbs abs => 0x0C :: bytes2 abs
  | .oraAbs abs => 0x0D :: bytes2 abs
  | .aslAbs abs => 0x0E :: bytes2 abs
  | .oraLong long => 0x0F :: bytes3 long
  | .bpl rel => [0x10, rel]
  | .oraDpIndY dp => [0x11, dp]
  | .oraDpInd dp => [0x12, dp]
  | .oraSrIndY sr => [0x13, sr]
  | .trbDp dp => [0x14, dp]
  | .oraDpX dp => [0x15, dp]
  | .aslDpX dp => [0x16, dp]
  | .oraDpIndLongY dp => [0x17, dp]
  | .clc => [0x18]
  | .oraAbsY abs => 0x19 :: bytes2 abs
  | .incAcc => [0x1A]
  | .tcs => [0x1B]
  | .trbAbs abs => 0x1C :: bytes2 abs
  | .oraAbsX abs => 0x1D :: bytes2 abs
  | .aslAbsX abs => 0x1E :: bytes2 abs
  | .oraLongX long => 0x1F :: bytes3 long
  | .jsrAbs abs => 0x20 :: bytes2 abs
  | .andDpXInd dp => [0x21, dp]
  | .jsl long => 0x22 :: bytes3 long
  | .andSr sr => [0x23, sr]
  | .bitDp dp => [0x24, dp]
  | .andDp dp => [0x25, dp]
  | .rolDp dp => [0x26, dp]
  | .andDpIndLong dp => [0x27, dp]
  | .plp => [0x28]
  | .andImm imm => 0x29 :: immBytes imm
  | .rolAcc => [0x2A]
  | .pld => [0x2B]
  | .bitAbs abs => 0x2C :: bytes2 abs
  | .andAbs abs => 0x2D :: bytes2 abs
  | .rolAbs abs => 0x2E :: bytes2 abs
  | .andLong long => 0x2F :: bytes3 long
  | .bmi rel => [0x30, rel]
  | .andDpIndY dp => [0x31, dp]
  | .andDpInd dp => [0x32, dp]
  | .andSrIndY sr => [0x33, sr]
  | .bitDpX dp => [0x34, dp]
  | .andDpX dp => [0x35, dp]
  | .rolDpX dp => [0x36, dp]
  | .andDpIndLongY dp => [0x37, dp]
  | .sec => [0x38]
  | .andAbsY abs => 0x39 :: bytes2 abs
  | .decAcc => [0x3A]
  | .tsc => [0x3B]
  | .bitAbsX abs => 0x3C :: bytes2 abs
  | .andAbsX abs => 0x3D :: bytes2 abs
  | .rolAbsX abs => 0x3E :: bytes2 abs
  | .andLongX long => 0x3F :: bytes3 long
  | .rti => [0x40]
  | .eorDpXInd dp => [0x41, dp]
  | .wdm sig => [0x42, sig]
  | .eorSr sr => [0x43, sr]
  | .mvp dst src => [0x44, dst, src]
  | .eorDp dp => [0x45, dp]
  | .lsrDp dp => [0x46, dp]
  | .eorDpIndLong dp => [0x47, dp]
  | .pha => [0x48]
  | .eorImm imm => 0x49 :: immBytes imm
  | .lsrAcc => [0x4A]
  | .phk => [0x4B]
  | .jmpAbs abs => 0x4C :: bytes2 abs
  | .eorAbs abs => 0x4D :: bytes2 abs
  | .lsrAbs abs => 0x4E :: bytes2 abs
  | .eorLong long => 0x4F :: bytes3 long
  | .bvc rel => [0x50, rel]
  | .eorDpIndY dp => [0x51, dp]
  | .eorDpInd dp => [0x52, dp]
  | .eorSrIndY sr => [0x53, sr]
  | .mvn dst src => [0x54, dst, src]
  | .eorDpX dp => [0x55, dp]
  | .lsrDpX dp => [0x56, dp]
  | .eorDpIndLongY dp => [0x57, dp]
  | .cli => [0x58]
  | .eorAbsY abs => 0x59 :: bytes2 abs
  | .phy => [0x5A]
  | .tcd => [0x5B]
  | .jmlLong long => 0x5C :: bytes3 long
  | .eorAbsX abs => 0x5D :: bytes2 abs
  | .lsrAbsX abs => 0x5E :: bytes2 abs
  | .eorLongX long => 0x5F :: bytes3 long
  | .rts => [0x60]
  | .adcDpXInd dp => [0x61, dp]
  | .per rell => 0x62 :: bytes2 rell
  | .adcSr sr => [0x63, sr]
  | .stzDp dp => [0x64, dp]
  | .adcDp dp => [0x65, dp]
  | .rorDp dp => [0x66, dp]
  | .adcDpIndLong dp => [0x67, dp]
  | .pla => [0x68]
  | .adcImm imm => 0x69 :: immBytes imm
  | .rorAcc => [0x6A]
  | .rtl => [0x6B]
  | .jmpInd abs => 0x6C :: bytes2 abs
  | .adcAbs abs => 0x6D :: bytes2 abs
  | .rorAbs abs => 0x6E :: bytes2 abs
  | .adcLong long => 0x6F :: bytes3 long
  | .bvs rel => [0x70, rel]
  | .adcDpIndY dp => [0x71, dp]
  | .adcDpInd dp => [0x72, dp]
  | .adcSrIndY sr => [0x73, sr]
  | .stzDpX dp => [0x74, dp]
  | .adcDpX dp => [0x75, dp]
  | .rorDpX dp => [0x76, dp]
  | .adcDpIndLongY dp => [0x77, dp]
  | .sei => [0x78]
  | .adcAbsY abs => 0x79 :: bytes2 abs
  | .ply => [0x7A]
  | .tdc => [0x7B]
  | .jmpIndX abs => 0x7C :: bytes2 abs
  | .adcAbsX abs => 0x7D :: bytes2 abs
  | .rorAbsX abs => 0x7E :: bytes2 abs
  | .adcLongX long => 0x7F :: bytes3 long
  | .bra rel => [0x80, rel]
  | .staDpXInd dp => [0x81, dp]
  | .brl rell => 0x82 :: bytes2 rell
  | .staSr sr => [0x83, sr]
  | .styDp dp => [0x84, dp]
  | .staDp dp => [0x85, dp]
  | .stxDp dp => [0x86, dp]
  | .staDpIndLong dp => [0x87, dp]
  | .dey => [0x88]
  | .bitImm imm => 0x89 :: immBytes imm
  | .txa => [0x8A]
  | .phb => [0x8B]
  | .styAbs abs => 0x8C :: bytes2 abs
  | .staAbs abs => 0x8D :: bytes2 abs
  | .stxAbs abs => 0x8E :: bytes2 abs
  | .staLong long => 0x8F :: bytes3 long
  | .bcc rel => [0x90, rel]
  | .staDpIndY dp => [0x91, dp]
  | .staDpInd dp => [0x92, dp]
  | .staSrIndY sr => [0x93, sr]
  | .styDpX dp => [0x94, dp]
  | .staDpX dp => [0x95, dp]
  | .stxDpY dp => [0x96, dp]
  | .staDpIndLongY dp => [0x97, dp]
  | .tya => [0x98]
  | .staAbsY abs => 0x99 :: bytes2 abs
  | .txs => [0x9A]
  | .txy => [0x9B]
  | .stzAbs abs => 0x9C :: bytes2 abs
  | .staAbsX abs => 0x9D :: bytes2 abs
  | .stzAbsX abs => 0x9E :: bytes2 abs
  | .staLongX long => 0x9F :: bytes3 long
  | .ldyImm imm => 0xA0 :: immBytes imm
  | .ldaDpXInd dp => [0xA1, dp]
  | .ldxImm imm => 0xA2 :: immBytes imm
  | .ldaSr sr => [0xA3, sr]
  | .ldyDp dp => [0xA4, dp]
  | .ldaDp dp => [0xA5, dp]
  | .ldxDp dp => [0xA6, dp]
  | .ldaDpIndLong dp => [0xA7, dp]
  | .tay => [0xA8]
  | .ldaImm imm => 0xA9 :: immBytes imm
  | .tax => [0xAA]
  | .plb => [0xAB]
  | .ldyAbs abs => 0xAC :: bytes2 abs
  | .ldaAbs abs => 0xAD :: bytes2 abs
  | .ldxAbs abs => 0xAE :: bytes2 abs
  | .ldaLong long => 0xAF :: bytes3 long
  | .bcs rel => [0xB0, rel]
  | .ldaDpIndY dp => [0xB1, dp]
  | .ldaDpInd dp => [0xB2, dp]
  | .ldaSrIndY sr => [0xB3, sr]
  | .ldyDpX dp => [0xB4, dp]
  | .ldaDpX dp => [0xB5, dp]
  | .ldxDpY dp => [0xB6, dp]
  | .ldaDpIndLongY dp => [0xB7, dp]
  | .clv => [0xB8]
  | .ldaAbsY abs => 0xB9 :: bytes2 abs
  | .tsx => [0xBA]
  | .tyx => [0xBB]
  | .ldyAbsX abs => 0xBC :: bytes2 abs
  | .ldaAbsX abs => 0xBD :: bytes2 abs
  | .ldxAbsY abs => 0xBE :: bytes2 abs
  | .ldaLongX long => 0xBF :: bytes3 long
  | .cpyImm imm => 0xC0 :: immBytes imm
  | .cmpDpXInd dp => [0xC1, dp]
  | .rep imm => [0xC2, imm]
  | .cmpSr sr => [0xC3, sr]
  | .cpyDp dp => [0xC4, dp]
  | .cmpDp dp => [0xC5, dp]
  | .decDp dp => [0xC6, dp]
  | .cmpDpIndLong dp => [0xC7, dp]
  | .iny => [0xC8]
  | .cmpImm imm => 0xC9 :: immBytes imm
  | .dex => [0xCA]
  | .wai => [0xCB]
  | .cpyAbs abs => 0xCC :: bytes2 abs
  | .cmpAbs abs => 0xCD :: bytes2 abs
  | .decAbs abs => 0xCE :: bytes2 abs
  | .cmpLong long => 0xCF :: bytes3 long
  | .bne rel => [0xD0, rel]
  | .cmpDpIndY dp => [0xD1, dp]
  | .cmpDpInd dp => [0xD2, dp]
  | .cmpSrIndY sr => [0xD3, sr]
  | .pei dp => [0xD4, dp]
  | .cmpDpX dp => [0xD5, dp]
  | .decDpX dp => [0xD6, dp]
  | .cmpDpIndLongY dp => [0xD7, dp]
  | .cld => [0xD8]
  | .cmpAbsY abs => 0xD9 :: bytes2 abs
  | .phx => [0xDA]
  | .stp => [0xDB]
  | .jmlInd abs => 0xDC :: bytes2 abs
  | .cmpAbsX abs => 0xDD :: bytes2 abs
  | .decAbsX abs => 0xDE :: bytes2 abs
  | .cmpLongX long => 0xDF :: bytes3 long
  | .cpxImm imm => 0xE0 :: immBytes imm
  | .sbcDpXInd dp => [0xE1, dp]
  | .sep imm => [0xE2, imm]
  | .sbcSr sr => [0xE3, sr]
  | .cpxDp dp => [0xE4, dp]
  | .sbcDp dp => [0xE5, dp]
  | .incDp dp => [0xE6, dp]
  | .sbcDpIndLong dp => [0xE7, dp]
  | .inx => [0xE8]
  | .sbcImm imm => 0xE9 :: immBytes imm
  | .nop => [0xEA]
  | .xba => [0xEB]
  | .cpxAbs abs => 0xEC :: bytes2 abs
  | .sbcAbs abs => 0xED :: bytes2 abs
  | .incAbs abs => 0xEE :: bytes2 abs
  | .sbcLong long => 0xEF :: bytes3 long
  | .beq rel => [0xF0, rel]
  | .sbcDpIndY dp => [0xF1, dp]
  | .sbcDpInd dp => [0xF2, dp]
  | .sbcSrIndY sr => [0xF3, sr]
  | .pea v => 0xF4 :: bytes2 v
  | .sbcDpX dp => [0xF5, dp]
  | .incDpX dp => [0xF6, dp]
  | .sbcDpIndLongY dp => [0xF7, dp]
  | .sed => [0xF8]
  | .sbcAbsY abs => 0xF9 :: bytes2 abs
  | .plx => [0xFA]
  | .xce => [0xFB]
  | .jsrIndX abs => 0xFC :: bytes2 abs
  | .sbcAbsX abs => 0xFD :: bytes2 abs
  | .incAbsX abs => 0xFE :: bytes2 abs
  | .sbcLongX long => 0xFF :: bytes3 long

end Sys2Proof
end

