-- ==== Sys2Proof/Machine/Fetch.lean ====
section
/-!
DEFINITION. Instruction fetch (R67, R104): the opcode at PBR:PC, then as many operand bytes as R102 gives it under the
current P.M and P.X, all inside the program bank; and the placing of bytes where the fetch reads.
-/
namespace Sys2Proof.Machine

/-- Byte `k` of the instruction stream at PC: it wraps inside the program bank (R67). -/
def State.fetchAddr (s : State) : EA := bankAddr s.pbr s.pc

/-- The `n` bytes at the address function `ea` from byte `k` on, in increasing order (R66). -/
def readBytes (s : State) (ea : EA) (k : Nat) : Nat → Acc (List Byte)
  | 0 => pure []
  | n + 1 => do
    let b ← read8 s .fetch (ea k)
    let bs ← readBytes s ea (k + 1) n
    pure (b :: bs)

/-- The bytes of the instruction at PBR:PC (R102, R104). -/
def fetchBytes (s : State) : Acc (List Byte) := do
  let op ← read8 s .fetch (s.fetchAddr 0)
  let bs ← readBytes s s.fetchAddr 1 (lengthOf s.flagM s.flagX op - 1)
  pure (op :: bs)

/-- The instruction at PBR:PC, decoded with the flags of the moment (R102, R104, R460). -/
def fetch (s : State) : Acc Instr := do
  let bs ← fetchBytes s
  match decode s.flagM s.flagX bs with
  | .ok (i, _) => pure i
  | .error _ => .error .undecodable

/-- Put bytes into memory at `ea k`, `ea (k+1)`, … from outside the machine. -/
def placeBytes (m : Memory) (ea : EA) (k : Nat) : List Byte → Memory
  | [] => m
  | b :: bs => placeBytes (m.set (ea k).toNat b) ea (k + 1) bs

/-- The map with RAM at the address `a` if nothing readable was there. -/
def ensureReadable (map : List Region) (a : Nat) : List Region :=
  match kindAt map a with
  | some .ram => map
  | some .rom => map
  | _ => { base := a, size := 1, kind := .ram } :: map

end Sys2Proof.Machine
end

