-- ==== Sys2Proof/Machine/Step.lean ====
section
/-!
DEFINITION. One step of the machine (R405), and the placing of one instruction where the next step fetches.
-/
namespace Sys2Proof.Machine

/-- Fetch, decode and run one instruction (R104). -/
def executeOne (s : State) : Out :=
  match fetch s with
  | .ok i => exec i s
  | .error e => finish (.error e)

/-- One step (R405). -/
def step (s : State) : Host.Outcome State Fault Refusal :=
  match chooseAction s.input s.sample with
  | .refuseAbort => .refused .abortAsserted
  | .reset => finish (doReset s.sample)
  | .takeNmi => finish (enterNmi s.sample)
  | .takeIrq => finish (enterIrq s.sample)
  | .wake => .next (wakeUp s.sample)
  | .idle => .next s.sample
  | .execute => executeOne s.sample

/-- The state with the instruction of `nbits` table bits `w` at PBR:PC, running, and with nothing asserted at the next
boundary, so that the next step fetches and runs it (log 12). -/
def State.withFetchWord (s : State) (nbits w : Nat) : State :=
  { s with
    mem := placeBytes s.mem s.fetchAddr 0 (wordBytes nbits w)
    memMap := ensureReadable (ensureReadable (ensureReadable (ensureReadable s.memMap (s.fetchAddr 3).toNat)
      (s.fetchAddr 2).toNat) (s.fetchAddr 1).toNat) (s.fetchAddr 0).toNat
    run := .running
    nmiPending := false
    inputs := match s.inputs with
      | [] => []
      | _ :: rest => Inputs.quiet :: rest }

end Sys2Proof.Machine
end

