-- ==== Sys2Proof/Forms.lean ====
section
/-!
DEFINITION. The encoding tables of the instruction rules of spec/40_load_store.md to 49_register_transfer.md, for the
mnemonics with several addressing modes: the opcode byte and the instruction of each operand form, `none` where the mnemonic
has no such form; and the mnemonic of every instruction (R105). Statements quantify over the forms of a mnemonic through
these tables; no part of the machine uses them.
-/
namespace Sys2Proof.Machine

/-- The opcodes of the implied and accumulator forms (R101 format F0). -/
def oneByteOpcodes : List Byte :=
  [0x08, 0x0A, 0x0B, 0x18, 0x1A, 0x1B, 0x28, 0x2A, 0x2B, 0x38, 0x3A, 0x3B, 0x40, 0x48, 0x4A, 0x4B, 0x58, 0x5A,
   0x5B, 0x60, 0x68, 0x6A, 0x6B, 0x78, 0x7A, 0x7B, 0x88, 0x8A, 0x8B, 0x98, 0x9A, 0x9B, 0xA8, 0xAA, 0xAB, 0xB8,
   0xBA, 0xBB, 0xC8, 0xCA, 0xCB, 0xD8, 0xDA, 0xDB, 0xE8, 0xEA, 0xEB, 0xF8, 0xFA, 0xFB]

/-- The opcodes of the direct-page, stack-relative and relative forms, and BRK, COP, WDM, REP and SEP (R101 format F1, R102). -/
def twoByteOpcodes : List Byte :=
  [0x00, 0x01, 0x02, 0x03, 0x04, 0x05, 0x06, 0x07, 0x10, 0x11, 0x12, 0x13, 0x14, 0x15, 0x16, 0x17, 0x21, 0x23,
   0x24, 0x25, 0x26, 0x27, 0x30, 0x31, 0x32, 0x33, 0x34, 0x35, 0x36, 0x37, 0x41, 0x42, 0x43, 0x45, 0x46, 0x47,
   0x50, 0x51, 0x52, 0x53, 0x55, 0x56, 0x57, 0x61, 0x63, 0x64, 0x65, 0x66, 0x67, 0x70, 0x71, 0x72, 0x73, 0x74,
   0x75, 0x76, 0x77, 0x80, 0x81, 0x83, 0x84, 0x85, 0x86, 0x87, 0x90, 0x91, 0x92, 0x93, 0x94, 0x95, 0x96, 0x97,
   0xA1, 0xA3, 0xA4, 0xA5, 0xA6, 0xA7, 0xB0, 0xB1, 0xB2, 0xB3, 0xB4, 0xB5, 0xB6, 0xB7, 0xC1, 0xC2, 0xC3, 0xC4,
   0xC5, 0xC6, 0xC7, 0xD0, 0xD1, 0xD2, 0xD3, 0xD4, 0xD5, 0xD6, 0xD7, 0xE1, 0xE2, 0xE3, 0xE4, 0xE5, 0xE6, 0xE7,
   0xF0, 0xF1, 0xF2, 0xF3, 0xF5, 0xF6, 0xF7]

/-- The opcodes of the absolute forms and their indirect ones, BRL, PER, PEA and the block moves (R101 formats F2 and FB,
R102). -/
def threeByteOpcodes : List Byte :=
  [0x0C, 0x0D, 0x0E, 0x19, 0x1C, 0x1D, 0x1E, 0x20, 0x2C, 0x2D, 0x2E, 0x39, 0x3C, 0x3D, 0x3E, 0x44, 0x4C, 0x4D,
   0x4E, 0x54, 0x59, 0x5D, 0x5E, 0x62, 0x6C, 0x6D, 0x6E, 0x79, 0x7C, 0x7D, 0x7E, 0x82, 0x8C, 0x8D, 0x8E, 0x99,
   0x9C, 0x9D, 0x9E, 0xAC, 0xAD, 0xAE, 0xB9, 0xBC, 0xBD, 0xBE, 0xCC, 0xCD, 0xCE, 0xD9, 0xDC, 0xDD, 0xDE, 0xEC,
   0xED, 0xEE, 0xF4, 0xF9, 0xFC, 0xFD, 0xFE]

/-- The opcodes of the absolute long forms (R101 format F3). -/
def fourByteOpcodes : List Byte :=
  [0x0F, 0x1F, 0x22, 0x2F, 0x3F, 0x4F, 0x5C, 0x5F, 0x6F, 0x7F, 0x8F, 0x9F, 0xAF, 0xBF, 0xCF, 0xDF, 0xEF, 0xFF]

/-- The operand bytes of a memory mode, in the order they are fetched (R101, R103). -/
def MemMode.encoded : MemMode → List Byte
  | .abs a | .absX a | .absY a => bytes2 a
  | .long a | .longX a => bytes3 a
  | .dp o | .dpX o | .dpY o | .dpInd o | .dpXInd o | .dpIndY o | .dpIndLong o | .dpIndLongY o | .sr o | .srIndY o => [o]

/-- The operand bytes of an operand that is read. -/
def Source.encoded : Source → List Byte
  | .imm v => immBytes v
  | .mem m => m.encoded

/-- The operand bytes of an operand that is read and written back. -/
def Target.encoded : Target → List Byte
  | .acc => []
  | .mem m => m.encoded

/-- The forms of LDA (R170). -/
def ldaForm : Source → Option (Byte × Instr)
  | .mem (.dpXInd o) => some (0xA1, .ldaDpXInd o)
  | .mem (.sr o) => some (0xA3, .ldaSr o)
  | .mem (.dp o) => some (0xA5, .ldaDp o)
  | .mem (.dpIndLong o) => some (0xA7, .ldaDpIndLong o)
  | .imm v => some (0xA9, .ldaImm v)
  | .mem (.abs a) => some (0xAD, .ldaAbs a)
  | .mem (.long a) => some (0xAF, .ldaLong a)
  | .mem (.dpIndY o) => some (0xB1, .ldaDpIndY o)
  | .mem (.dpInd o) => some (0xB2, .ldaDpInd o)
  | .mem (.srIndY o) => some (0xB3, .ldaSrIndY o)
  | .mem (.dpX o) => some (0xB5, .ldaDpX o)
  | .mem (.dpIndLongY o) => some (0xB7, .ldaDpIndLongY o)
  | .mem (.absY a) => some (0xB9, .ldaAbsY a)
  | .mem (.absX a) => some (0xBD, .ldaAbsX a)
  | .mem (.longX a) => some (0xBF, .ldaLongX a)
  | _ => none

/-- The forms of LDX (R171). -/
def ldxForm : Source → Option (Byte × Instr)
  | .imm v => some (0xA2, .ldxImm v)
  | .mem (.dp o) => some (0xA6, .ldxDp o)
  | .mem (.abs a) => some (0xAE, .ldxAbs a)
  | .mem (.dpY o) => some (0xB6, .ldxDpY o)
  | .mem (.absY a) => some (0xBE, .ldxAbsY a)
  | _ => none

/-- The forms of LDY (R172). -/
def ldyForm : Source → Option (Byte × Instr)
  | .imm v => some (0xA0, .ldyImm v)
  | .mem (.dp o) => some (0xA4, .ldyDp o)
  | .mem (.abs a) => some (0xAC, .ldyAbs a)
  | .mem (.dpX o) => some (0xB4, .ldyDpX o)
  | .mem (.absX a) => some (0xBC, .ldyAbsX a)
  | _ => none

/-- The forms of ADC (R190). -/
def adcForm : Source → Option (Byte × Instr)
  | .mem (.dpXInd o) => some (0x61, .adcDpXInd o)
  | .mem (.sr o) => some (0x63, .adcSr o)
  | .mem (.dp o) => some (0x65, .adcDp o)
  | .mem (.dpIndLong o) => some (0x67, .adcDpIndLong o)
  | .imm v => some (0x69, .adcImm v)
  | .mem (.abs a) => some (0x6D, .adcAbs a)
  | .mem (.long a) => some (0x6F, .adcLong a)
  | .mem (.dpIndY o) => some (0x71, .adcDpIndY o)
  | .mem (.dpInd o) => some (0x72, .adcDpInd o)
  | .mem (.srIndY o) => some (0x73, .adcSrIndY o)
  | .mem (.dpX o) => some (0x75, .adcDpX o)
  | .mem (.dpIndLongY o) => some (0x77, .adcDpIndLongY o)
  | .mem (.absY a) => some (0x79, .adcAbsY a)
  | .mem (.absX a) => some (0x7D, .adcAbsX a)
  | .mem (.longX a) => some (0x7F, .adcLongX a)
  | _ => none

/-- The forms of SBC (R191). -/
def sbcForm : Source → Option (Byte × Instr)
  | .mem (.dpXInd o) => some (0xE1, .sbcDpXInd o)
  | .mem (.sr o) => some (0xE3, .sbcSr o)
  | .mem (.dp o) => some (0xE5, .sbcDp o)
  | .mem (.dpIndLong o) => some (0xE7, .sbcDpIndLong o)
  | .imm v => some (0xE9, .sbcImm v)
  | .mem (.abs a) => some (0xED, .sbcAbs a)
  | .mem (.long a) => some (0xEF, .sbcLong a)
  | .mem (.dpIndY o) => some (0xF1, .sbcDpIndY o)
  | .mem (.dpInd o) => some (0xF2, .sbcDpInd o)
  | .mem (.srIndY o) => some (0xF3, .sbcSrIndY o)
  | .mem (.dpX o) => some (0xF5, .sbcDpX o)
  | .mem (.dpIndLongY o) => some (0xF7, .sbcDpIndLongY o)
  | .mem (.absY a) => some (0xF9, .sbcAbsY a)
  | .mem (.absX a) => some (0xFD, .sbcAbsX a)
  | .mem (.longX a) => some (0xFF, .sbcLongX a)
  | _ => none

/-- The forms of AND (R194). -/
def andForm : Source → Option (Byte × Instr)
  | .mem (.dpXInd o) => some (0x21, .andDpXInd o)
  | .mem (.sr o) => some (0x23, .andSr o)
  | .mem (.dp o) => some (0x25, .andDp o)
  | .mem (.dpIndLong o) => some (0x27, .andDpIndLong o)
  | .imm v => some (0x29, .andImm v)
  | .mem (.abs a) => some (0x2D, .andAbs a)
  | .mem (.long a) => some (0x2F, .andLong a)
  | .mem (.dpIndY o) => some (0x31, .andDpIndY o)
  | .mem (.dpInd o) => some (0x32, .andDpInd o)
  | .mem (.srIndY o) => some (0x33, .andSrIndY o)
  | .mem (.dpX o) => some (0x35, .andDpX o)
  | .mem (.dpIndLongY o) => some (0x37, .andDpIndLongY o)
  | .mem (.absY a) => some (0x39, .andAbsY a)
  | .mem (.absX a) => some (0x3D, .andAbsX a)
  | .mem (.longX a) => some (0x3F, .andLongX a)
  | _ => none

/-- The forms of ORA (R195). -/
def oraForm : Source → Option (Byte × Instr)
  | .mem (.dpXInd o) => some (0x01, .oraDpXInd o)
  | .mem (.sr o) => some (0x03, .oraSr o)
  | .mem (.dp o) => some (0x05, .oraDp o)
  | .mem (.dpIndLong o) => some (0x07, .oraDpIndLong o)
  | .imm v => some (0x09, .oraImm v)
  | .mem (.abs a) => some (0x0D, .oraAbs a)
  | .mem (.long a) => some (0x0F, .oraLong a)
  | .mem (.dpIndY o) => some (0x11, .oraDpIndY o)
  | .mem (.dpInd o) => some (0x12, .oraDpInd o)
  | .mem (.srIndY o) => some (0x13, .oraSrIndY o)
  | .mem (.dpX o) => some (0x15, .oraDpX o)
  | .mem (.dpIndLongY o) => some (0x17, .oraDpIndLongY o)
  | .mem (.absY a) => some (0x19, .oraAbsY a)
  | .mem (.absX a) => some (0x1D, .oraAbsX a)
  | .mem (.longX a) => some (0x1F, .oraLongX a)
  | _ => none

/-- The forms of EOR (R196). -/
def eorForm : Source → Option (Byte × Instr)
  | .mem (.dpXInd o) => some (0x41, .eorDpXInd o)
  | .mem (.sr o) => some (0x43, .eorSr o)
  | .mem (.dp o) => some (0x45, .eorDp o)
  | .mem (.dpIndLong o) => some (0x47, .eorDpIndLong o)
  | .imm v => some (0x49, .eorImm v)
  | .mem (.abs a) => some (0x4D, .eorAbs a)
  | .mem (.long a) => some (0x4F, .eorLong a)
  | .mem (.dpIndY o) => some (0x51, .eorDpIndY o)
  | .mem (.dpInd o) => some (0x52, .eorDpInd o)
  | .mem (.srIndY o) => some (0x53, .eorSrIndY o)
  | .mem (.dpX o) => some (0x55, .eorDpX o)
  | .mem (.dpIndLongY o) => some (0x57, .eorDpIndLongY o)
  | .mem (.absY a) => some (0x59, .eorAbsY a)
  | .mem (.absX a) => some (0x5D, .eorAbsX a)
  | .mem (.longX a) => some (0x5F, .eorLongX a)
  | _ => none

/-- The forms of CMP (R226). -/
def cmpForm : Source → Option (Byte × Instr)
  | .mem (.dpXInd o) => some (0xC1, .cmpDpXInd o)
  | .mem (.sr o) => some (0xC3, .cmpSr o)
  | .mem (.dp o) => some (0xC5, .cmpDp o)
  | .mem (.dpIndLong o) => some (0xC7, .cmpDpIndLong o)
  | .imm v => some (0xC9, .cmpImm v)
  | .mem (.abs a) => some (0xCD, .cmpAbs a)
  | .mem (.long a) => some (0xCF, .cmpLong a)
  | .mem (.dpIndY o) => some (0xD1, .cmpDpIndY o)
  | .mem (.dpInd o) => some (0xD2, .cmpDpInd o)
  | .mem (.srIndY o) => some (0xD3, .cmpSrIndY o)
  | .mem (.dpX o) => some (0xD5, .cmpDpX o)
  | .mem (.dpIndLongY o) => some (0xD7, .cmpDpIndLongY o)
  | .mem (.absY a) => some (0xD9, .cmpAbsY a)
  | .mem (.absX a) => some (0xDD, .cmpAbsX a)
  | .mem (.longX a) => some (0xDF, .cmpLongX a)
  | _ => none

/-- The forms of CPX (R227). -/
def cpxForm : Source → Option (Byte × Instr)
  | .imm v => some (0xE0, .cpxImm v)
  | .mem (.dp o) => some (0xE4, .cpxDp o)
  | .mem (.abs a) => some (0xEC, .cpxAbs a)
  | _ => none

/-- The forms of CPY (R228). -/
def cpyForm : Source → Option (Byte × Instr)
  | .imm v => some (0xC0, .cpyImm v)
  | .mem (.dp o) => some (0xC4, .cpyDp o)
  | .mem (.abs a) => some (0xCC, .cpyAbs a)
  | _ => none

/-- The forms of BIT (R310). -/
def bitForm : Source → Option (Byte × Instr)
  | .mem (.dp o) => some (0x24, .bitDp o)
  | .mem (.abs a) => some (0x2C, .bitAbs a)
  | .mem (.dpX o) => some (0x34, .bitDpX o)
  | .mem (.absX a) => some (0x3C, .bitAbsX a)
  | .imm v => some (0x89, .bitImm v)
  | _ => none

/-- The forms of STA (R173). -/
def staForm : MemMode → Option (Byte × Instr)
  | .dpXInd o => some (0x81, .staDpXInd o)
  | .sr o => some (0x83, .staSr o)
  | .dp o => some (0x85, .staDp o)
  | .dpIndLong o => some (0x87, .staDpIndLong o)
  | .abs a => some (0x8D, .staAbs a)
  | .long a => some (0x8F, .staLong a)
  | .dpIndY o => some (0x91, .staDpIndY o)
  | .dpInd o => some (0x92, .staDpInd o)
  | .srIndY o => some (0x93, .staSrIndY o)
  | .dpX o => some (0x95, .staDpX o)
  | .dpIndLongY o => some (0x97, .staDpIndLongY o)
  | .absY a => some (0x99, .staAbsY a)
  | .absX a => some (0x9D, .staAbsX a)
  | .longX a => some (0x9F, .staLongX a)
  | _ => none

/-- The forms of STX (R174). -/
def stxForm : MemMode → Option (Byte × Instr)
  | .dp o => some (0x86, .stxDp o)
  | .abs a => some (0x8E, .stxAbs a)
  | .dpY o => some (0x96, .stxDpY o)
  | _ => none

/-- The forms of STY (R175). -/
def styForm : MemMode → Option (Byte × Instr)
  | .dp o => some (0x84, .styDp o)
  | .abs a => some (0x8C, .styAbs a)
  | .dpX o => some (0x94, .styDpX o)
  | _ => none

/-- The forms of STZ (R176). -/
def stzForm : MemMode → Option (Byte × Instr)
  | .dp o => some (0x64, .stzDp o)
  | .dpX o => some (0x74, .stzDpX o)
  | .abs a => some (0x9C, .stzAbs a)
  | .absX a => some (0x9E, .stzAbsX a)
  | _ => none

/-- The forms of TSB (R311). -/
def tsbForm : MemMode → Option (Byte × Instr)
  | .dp o => some (0x04, .tsbDp o)
  | .abs a => some (0x0C, .tsbAbs a)
  | _ => none

/-- The forms of TRB (R312). -/
def trbForm : MemMode → Option (Byte × Instr)
  | .dp o => some (0x14, .trbDp o)
  | .abs a => some (0x1C, .trbAbs a)
  | _ => none

/-- The forms of ASL (R210). -/
def aslForm : Target → Option (Byte × Instr)
  | .mem (.dp o) => some (0x06, .aslDp o)
  | .acc => some (0x0A, .aslAcc)
  | .mem (.abs a) => some (0x0E, .aslAbs a)
  | .mem (.dpX o) => some (0x16, .aslDpX o)
  | .mem (.absX a) => some (0x1E, .aslAbsX a)
  | _ => none

/-- The forms of LSR (R211). -/
def lsrForm : Target → Option (Byte × Instr)
  | .mem (.dp o) => some (0x46, .lsrDp o)
  | .acc => some (0x4A, .lsrAcc)
  | .mem (.abs a) => some (0x4E, .lsrAbs a)
  | .mem (.dpX o) => some (0x56, .lsrDpX o)
  | .mem (.absX a) => some (0x5E, .lsrAbsX a)
  | _ => none

/-- The forms of ROL (R212). -/
def rolForm : Target → Option (Byte × Instr)
  | .mem (.dp o) => some (0x26, .rolDp o)
  | .acc => some (0x2A, .rolAcc)
  | .mem (.abs a) => some (0x2E, .rolAbs a)
  | .mem (.dpX o) => some (0x36, .rolDpX o)
  | .mem (.absX a) => some (0x3E, .rolAbsX a)
  | _ => none

/-- The forms of ROR (R213). -/
def rorForm : Target → Option (Byte × Instr)
  | .mem (.dp o) => some (0x66, .rorDp o)
  | .acc => some (0x6A, .rorAcc)
  | .mem (.abs a) => some (0x6E, .rorAbs a)
  | .mem (.dpX o) => some (0x76, .rorDpX o)
  | .mem (.absX a) => some (0x7E, .rorAbsX a)
  | _ => none

/-- The forms of INC (R220). -/
def incForm : Target → Option (Byte × Instr)
  | .acc => some (0x1A, .incAcc)
  | .mem (.dp o) => some (0xE6, .incDp o)
  | .mem (.abs a) => some (0xEE, .incAbs a)
  | .mem (.dpX o) => some (0xF6, .incDpX o)
  | .mem (.absX a) => some (0xFE, .incAbsX a)
  | _ => none

/-- The forms of DEC (R223). -/
def decForm : Target → Option (Byte × Instr)
  | .acc => some (0x3A, .decAcc)
  | .mem (.dp o) => some (0xC6, .decDp o)
  | .mem (.abs a) => some (0xCE, .decAbs a)
  | .mem (.dpX o) => some (0xD6, .decDpX o)
  | .mem (.absX a) => some (0xDE, .decAbsX a)
  | _ => none

end Sys2Proof.Machine

namespace Sys2Proof

/-- The 92 mnemonics (R105). -/
inductive Mnemonic where
  | adc | and | asl | bcc | bcs | beq | bit | bmi | bne | bpl | bra | brk | brl | bvc | bvs | clc | cld | cli | clv
  | cmp | cop | cpx | cpy | dec | dex | dey | eor | inc | inx | iny | jml | jmp | jsl | jsr | lda | ldx | ldy | lsr
  | mvn | mvp | nop | ora | pea | pei | per | pha | phb | phd | phk | php | phx | phy | pla | plb | pld | plp | plx
  | ply | rep | rol | ror | rti | rtl | rts | sbc | sec | sed | sei | sep | sta | stp | stx | sty | stz | tax | tay
  | tcd | tcs | tdc | trb | tsb | tsc | tsx | txa | txs | txy | tya | tyx | wai | wdm | xba | xce
  deriving DecidableEq, Repr

/-- The mnemonic of an instruction (R105). -/
def Instr.mnemonic : Instr → Mnemonic
  | .adcDpXInd _ | .adcSr _ | .adcDp _ | .adcDpIndLong _ | .adcImm _ | .adcAbs _ | .adcLong _ | .adcDpIndY _
  | .adcDpInd _ | .adcSrIndY _ | .adcDpX _ | .adcDpIndLongY _ | .adcAbsY _ | .adcAbsX _ | .adcLongX _ => .adc
  | .andDpXInd _ | .andSr _ | .andDp _ | .andDpIndLong _ | .andImm _ | .andAbs _ | .andLong _ | .andDpIndY _
  | .andDpInd _ | .andSrIndY _ | .andDpX _ | .andDpIndLongY _ | .andAbsY _ | .andAbsX _ | .andLongX _ => .and
  | .aslDp _ | .aslAcc | .aslAbs _ | .aslDpX _ | .aslAbsX _ => .asl
  | .bcc _ => .bcc
  | .bcs _ => .bcs
  | .beq _ => .beq
  | .bitDp _ | .bitAbs _ | .bitDpX _ | .bitAbsX _ | .bitImm _ => .bit
  | .bmi _ => .bmi
  | .bne _ => .bne
  | .bpl _ => .bpl
  | .bra _ => .bra
  | .brk _ => .brk
  | .brl _ => .brl
  | .bvc _ => .bvc
  | .bvs _ => .bvs
  | .clc => .clc
  | .cld => .cld
  | .cli => .cli
  | .clv => .clv
  | .cmpDpXInd _ | .cmpSr _ | .cmpDp _ | .cmpDpIndLong _ | .cmpImm _ | .cmpAbs _ | .cmpLong _ | .cmpDpIndY _
  | .cmpDpInd _ | .cmpSrIndY _ | .cmpDpX _ | .cmpDpIndLongY _ | .cmpAbsY _ | .cmpAbsX _ | .cmpLongX _ => .cmp
  | .cop _ => .cop
  | .cpxImm _ | .cpxDp _ | .cpxAbs _ => .cpx
  | .cpyImm _ | .cpyDp _ | .cpyAbs _ => .cpy
  | .decAcc | .decDp _ | .decAbs _ | .decDpX _ | .decAbsX _ => .dec
  | .dex => .dex
  | .dey => .dey
  | .eorDpXInd _ | .eorSr _ | .eorDp _ | .eorDpIndLong _ | .eorImm _ | .eorAbs _ | .eorLong _ | .eorDpIndY _
  | .eorDpInd _ | .eorSrIndY _ | .eorDpX _ | .eorDpIndLongY _ | .eorAbsY _ | .eorAbsX _ | .eorLongX _ => .eor
  | .incAcc | .incDp _ | .incAbs _ | .incDpX _ | .incAbsX _ => .inc
  | .inx => .inx
  | .iny => .iny
  | .jmlLong _ | .jmlInd _ => .jml
  | .jmpAbs _ | .jmpInd _ | .jmpIndX _ => .jmp
  | .jsl _ => .jsl
  | .jsrAbs _ | .jsrIndX _ => .jsr
  | .ldaDpXInd _ | .ldaSr _ | .ldaDp _ | .ldaDpIndLong _ | .ldaImm _ | .ldaAbs _ | .ldaLong _ | .ldaDpIndY _
  | .ldaDpInd _ | .ldaSrIndY _ | .ldaDpX _ | .ldaDpIndLongY _ | .ldaAbsY _ | .ldaAbsX _ | .ldaLongX _ => .lda
  | .ldxImm _ | .ldxDp _ | .ldxAbs _ | .ldxDpY _ | .ldxAbsY _ => .ldx
  | .ldyImm _ | .ldyDp _ | .ldyAbs _ | .ldyDpX _ | .ldyAbsX _ => .ldy
  | .lsrDp _ | .lsrAcc | .lsrAbs _ | .lsrDpX _ | .lsrAbsX _ => .lsr
  | .mvn _ _ => .mvn
  | .mvp _ _ => .mvp
  | .nop => .nop
  | .oraDpXInd _ | .oraSr _ | .oraDp _ | .oraDpIndLong _ | .oraImm _ | .oraAbs _ | .oraLong _ | .oraDpIndY _
  | .oraDpInd _ | .oraSrIndY _ | .oraDpX _ | .oraDpIndLongY _ | .oraAbsY _ | .oraAbsX _ | .oraLongX _ => .ora
  | .pea _ => .pea
  | .pei _ => .pei
  | .per _ => .per
  | .pha => .pha
  | .phb => .phb
  | .phd => .phd
  | .phk => .phk
  | .php => .php
  | .phx => .phx
  | .phy => .phy
  | .pla => .pla
  | .plb => .plb
  | .pld => .pld
  | .plp => .plp
  | .plx => .plx
  | .ply => .ply
  | .rep _ => .rep
  | .rolDp _ | .rolAcc | .rolAbs _ | .rolDpX _ | .rolAbsX _ => .rol
  | .rorDp _ | .rorAcc | .rorAbs _ | .rorDpX _ | .rorAbsX _ => .ror
  | .rti => .rti
  | .rtl => .rtl
  | .rts => .rts
  | .sbcDpXInd _ | .sbcSr _ | .sbcDp _ | .sbcDpIndLong _ | .sbcImm _ | .sbcAbs _ | .sbcLong _ | .sbcDpIndY _
  | .sbcDpInd _ | .sbcSrIndY _ | .sbcDpX _ | .sbcDpIndLongY _ | .sbcAbsY _ | .sbcAbsX _ | .sbcLongX _ => .sbc
  | .sec => .sec
  | .sed => .sed
  | .sei => .sei
  | .sep _ => .sep
  | .staDpXInd _ | .staSr _ | .staDp _ | .staDpIndLong _ | .staAbs _ | .staLong _ | .staDpIndY _
  | .staDpInd _ | .staSrIndY _ | .staDpX _ | .staDpIndLongY _ | .staAbsY _ | .staAbsX _ | .staLongX _ => .sta
  | .stp => .stp
  | .stxDp _ | .stxAbs _ | .stxDpY _ => .stx
  | .styDp _ | .styAbs _ | .styDpX _ => .sty
  | .stzDp _ | .stzDpX _ | .stzAbs _ | .stzAbsX _ => .stz
  | .tax => .tax
  | .tay => .tay
  | .tcd => .tcd
  | .tcs => .tcs
  | .tdc => .tdc
  | .trbDp _ | .trbAbs _ => .trb
  | .tsbDp _ | .tsbAbs _ => .tsb
  | .tsc => .tsc
  | .tsx => .tsx
  | .txa => .txa
  | .txs => .txs
  | .txy => .txy
  | .tya => .tya
  | .tyx => .tyx
  | .wai => .wai
  | .wdm _ => .wdm
  | .xba => .xba
  | .xce => .xce

end Sys2Proof
end

