-- ==== Sys2Proof/Safety.lean ====
section
/-!
DEFINITION. The terms claims are stated in: the invariant of R38 with the canonical form of memory, a platform whose whole
address space is RAM, and a step that runs an instruction.
-/
namespace Sys2Proof.Machine

/-- In emulation mode the widths are 8 bits (R38 item 1). -/
abbrev State.WidthsForced (s : State) : Prop := s.e = true → s.flagM = true ∧ s.flagX = true

/-- In emulation mode the stack is in page 1 (R38 item 2). -/
abbrev State.StackForced (s : State) : Prop := s.e = true → hi s.s = 0x01

/-- With 8-bit index registers their high bytes are zero (R38 item 3). -/
abbrev State.IndexNarrow (s : State) : Prop := s.flagX = true → hi s.x = 0 ∧ hi s.y = 0

/-- The invariants of R38, and memory in canonical form. -/
abbrev State.Inv (s : State) : Prop :=
  s.WidthsForced ∧ s.StackForced ∧ s.IndexNarrow ∧ s.mem.wf = true

/-- MEM answers every address as RAM (R69). -/
def State.AllRam (s : State) : Prop := ∀ a : Addr, kindAt s.memMap a.toNat = some .ram

/-- MEM answers a read for the purpose `k` from a region of this kind, or from none (R69, R70). -/
def answersRead (k : Access) : Option RegionKind → Bool
  | some .ram => true
  | some .rom => true
  | some (.device effects harmless) => deviceTakes k effects harmless
  | none => false

/-- MEM answers a read of the address for the purpose `k` (R69, R70). -/
abbrev State.Readable (s : State) (k : Access) (a : Addr) : Prop := answersRead k (kindAt s.memMap a.toNat) = true

/-- The address is RAM, so that it holds what is written there (R69). -/
abbrev State.Writable (s : State) (a : Addr) : Prop := kindAt s.memMap a.toNat = some .ram

/-- The address is RAM or ROM, so that a read there gives what it holds (R69). -/
abbrev State.RamOrRom (s : State) (a : Addr) : Prop :=
  kindAt s.memMap a.toNat = some .ram ∨ kindAt s.memMap a.toNat = some .rom

/-- The address belongs to a device that takes an access for the purpose `k` (R70). -/
def State.TakenByDevice (s : State) (k : Access) (a : Addr) : Prop :=
  ∃ effects harmless, kindAt s.memMap a.toNat = some (.device effects harmless) ∧ deviceTakes k effects harmless = true

/-- The byte of RAM or ROM at a 24-bit address. -/
abbrev State.byteAt (s : State) (a : Addr) : Byte := s.mem.get a.toNat

/-- The byte a read for the purpose `k` gives: a device answers a free value, RAM and ROM what they hold (R70; log 24). -/
def State.seen (s : State) (k : Access) (a : Addr) : Byte :=
  match kindAt s.memMap a.toNat with
  | some (.device _ _) => Config.deviceByte s.deviceWrites s.draw k a
  | _ => s.byteAt a

/-- The next step executes an instruction: running, and nothing is asserted or pending (R405). -/
abbrev State.Executes (s : State) : Prop := chooseAction s.input s.sample = .execute

end Sys2Proof.Machine
end

