-- ==== Sys2Proof/Claims.lean ====
section
/-!
DEFINITION. The vocabulary of the statements in Certificates/Slice0/Obligations.lean: what an operand's value is, what a
status byte or a register holds after an instruction, which bytes of memory a store or a push changes. Nothing here is part
of the machine.
-/
namespace Sys2Proof.Machine

/-- The bytes 0 to `n - 1` of the datum at `ea` can be read for the purpose `k`. -/
abbrev State.CanRead (s : State) (k : Access) (ea : EA) (n : Nat) : Prop := ∀ j, j < n → s.Readable k (ea j)

/-- The bytes 0 to `n - 1` of the datum at `ea` are RAM. -/
abbrev State.CanWrite (s : State) (ea : EA) (n : Nat) : Prop := ∀ k, k < n → s.Writable (ea k)

/-- The bytes 0 to `n - 1` of the datum at `ea` belong to devices that take an access for the purpose `k`. -/
abbrev State.OnDevice (s : State) (k : Access) (ea : EA) (n : Nat) : Prop := ∀ j, j < n → s.TakenByDevice k (ea j)

/-- The datum of width `w` that a read at `ea` for the purpose `k` gives, its low byte at `ea 0` (R62). -/
def State.valueAt (s : State) (k : Access) (ea : EA) : (w : Width) → BitVec w.bits
  | .w8 => s.seen k (ea 0)
  | .w16 => word (s.seen k (ea 1)) (s.seen k (ea 0))

/-- The 24-bit pointer at `ea`, its low byte at `ea 0`, its bank byte at `ea 2` (R62). -/
def State.pointerAt (s : State) (ea : EA) : Addr :=
  addr (s.seen .pointer (ea 2)) (word (s.seen .pointer (ea 1)) (s.seen .pointer (ea 0)))

/-- The bytes of the datum `v` stored at `ea` low byte first, as a list of writes, the latest first (R66). -/
def writesOf (ea : EA) : (w : Width) → BitVec w.bits → List Host.Cell
  | .w8, v => [((ea 0).toNat, v)]
  | .w16, v => [((ea 1).toNat, hi v), ((ea 0).toNat, lo v)]

/-- The operand of width `w` is `v`: an immediate of that width, or the value at the operand's address (R132, R158). -/
def OperandIs (s : State) : (w : Width) → Source → BitVec w.bits → Prop
  | .w8, .imm i, v => i = .byte v
  | .w16, .imm i, v => i = .word v
  | w, .mem m, v => ∃ ea, m.ea s = .ok ea ∧ s.CanRead m.access ea w.bytes ∧ v = s.valueAt m.access ea w

/-- `PCn`: the address after an instruction of `n` bytes, inside the program bank (R13, R104). -/
def State.pcn (s : State) (n : Nat) : Word := s.pc + BitVec.ofNat 16 n

/-- The status byte `new` has the listed bits at the listed values, and every other bit as `old` has it. -/
def StatusIs (old new : Byte) (written : List (Nat × Bool)) : Prop :=
  ∀ k, k < 8 → new.getLsbD k = (written.lookup k).getD (old.getLsbD k)

/-- The N and Z that a result of any width gives (R11). -/
def nz {w : Nat} (v : BitVec w) : List (Nat × Bool) := [(7, v.getLsbD (w - 1)), (1, v == 0)]

/-- `c'` is the accumulator `c` after a write of `v` at width `w`: at 8 bits the high byte is kept (R40). -/
def AccIs (c c' : Word) (w : Width) (v : BitVec w.bits) : Prop :=
  c'.setWidth w.bits = v ∧ (w = .w8 → hi c' = hi c)

/-- `x'` is an index register after a write of `v` at width `w`: at 8 bits the high byte is zero (R40). -/
def IndexIs (x' : Word) (w : Width) (v : BitVec w.bits) : Prop :=
  x'.setWidth w.bits = v ∧ (w = .w8 → hi x' = 0)

/-- `new` is the memory `old` after the datum `v` of width `w` was stored at `ea`: its low byte at `ea 0`, its high byte, if
it has one, at `ea 1`, and every other address as before (R62). -/
def StoredAt (old new : Memory) (ea : EA) (w : Width) (v : BitVec w.bits) : Prop :=
  ∀ a : Addr, new.get a.toNat =
    if a = ea 0 then v.setWidth 8
    else if w = .w16 ∧ a = ea 1 then v.extractLsb' 8 8
    else old.get a.toNat

/-- The address the `k`-th byte from now is pushed to: bank 0, at S less `k`, and in emulation mode less `k` in SL alone
(R68). -/
def State.slot (s : State) : EA := fun k => addr 0 (s.spDown k)

/-- The address the `k`-th byte from now is pulled from: bank 0, at S plus `k + 1`, in emulation mode in SL alone (R68). -/
def State.pullSlot (s : State) : EA := fun k => addr 0 (s.spUp (k + 1))

/-- What the address `a` holds after `bs` were pushed in order, the first of them at slot `k`. -/
def State.afterPush (s : State) (a : Addr) : Nat → List Byte → Byte
  | _, [] => s.byteAt a
  | k, b :: bs => if a = s.slot k then b else s.afterPush a (k + 1) bs

/-- `new` is the memory of `s` after the bytes `bs` were pushed in order: each in its slot, every other address as before
(R68). -/
def PushedAt (s : State) (new : Memory) (bs : List Byte) : Prop :=
  ∀ a : Addr, new.get a.toNat = s.afterPush a 0 bs

/-- The bytes an event pushes: in native mode the program bank first, then the return address high byte first, then the
status byte; in emulation mode no bank (R411). -/
def frame (s : State) (r : Word) (status : Byte) : List Byte :=
  if s.e then [hi r, lo r, status] else [s.pbr, hi r, lo r, status]

/-- The stack of the event `k` is RAM, and its vector can be read. -/
def State.CanEnter (s : State) (k : Event) : Prop :=
  s.CanWrite s.slot (if s.e then 3 else 4) ∧ s.CanRead .vector (vectorEA (vectorOf s.vectors s.e k)) 2

/-- `t` is `s` after interrupt entry for `k` with return address `r`: the frame is pushed, I is set and D cleared, PBR is 0,
PC is the vector's word in bank 0 (R410, D2), and nothing else has changed (R411, R412). -/
def Entered (k : Event) (r : Word) (s t : State) : Prop :=
  ∃ status p m,
    StatusIs s.p status (if s.e then [(4, decide (k = .brk ∨ k = .cop))] else []) ∧
    StatusIs s.p p [(2, true), (3, false)] ∧
    PushedAt s m (frame s r status) ∧
    t = { s with
      s := s.spDown (if s.e then 3 else 4)
      mem := m
      p := p
      pbr := 0
      pc := State.valueAt { s with mem := m } .vector (vectorEA (vectorOf s.vectors s.e k)) .w16 }

/-- The `n` bytes of the instruction stream at PBR:PC (R67). -/
def State.codeBytes (s : State) (n : Nat) : List Byte := (List.range n).map fun k => s.seen .fetch (s.fetchAddr k)

/-- Under the state's P.M and P.X the bytes `bs` are the instruction `i`, whatever follows them. -/
def Encodes (s : State) (bs : List Byte) (i : Instr) : Prop :=
  ∀ rest, decode s.flagM s.flagX (bs ++ rest) = .ok (i, rest)

/-- `p`, `x`, `y` are the status byte and the index registers of `s` after the status byte was written as `v`: in emulation
mode bits 5 and 4 are 1, and a P.X that is 1 clears the high bytes of X and Y (R39). -/
def StatusWritten (s : State) (v p : Byte) (x y : Word) : Prop :=
  p = (if s.e then v ||| 0x30 else v) ∧
  x = (if p.getLsbD 4 then word 0 (lo s.x) else s.x) ∧
  y = (if p.getLsbD 4 then word 0 (lo s.y) else s.y)

/-- Run the instruction `i` `n` times in a row. -/
def execTimes (i : Instr) : Nat → State → Out
  | 0, s => .next s
  | n + 1, s => match exec i s with
    | .next t => execTimes i n t
    | .fault f => .fault f
    | .refused r => .refused r

/-- Every digit of the `k`-digit bit pattern `v` is at most 9 (R192). -/
def ValidBcd (v : Nat) : Nat → Prop
  | 0 => True
  | k + 1 => digit v k ≤ 9 ∧ ValidBcd v k

/-- The number the `k` low digits of `v` spell in decimal (R192). -/
def bcdValue (v : Nat) : Nat → Nat
  | 0 => 0
  | k + 1 => bcdValue v k + digit v k * 10 ^ k

/-- `x` lies in the range of a signed number of `w` bits. -/
abbrev FitsSigned (w : Nat) (x : Int) : Prop := -(2 : Int) ^ (w - 1) ≤ x ∧ x < (2 : Int) ^ (w - 1)

/-- One of the reading instructions: for every form of it, when the operand of width `w` is `m`, the form's bytes are that
instruction, and it writes the accumulator at that width with `res m` and the status bits of `flags m`, and nothing else
but PC. -/
def WritesAcc (form : Source → Option (Byte × Instr)) (s : State) (res : BitVec s.wA.bits → BitVec s.wA.bits)
    (flags : BitVec s.wA.bits → List (Nat × Bool)) : Prop :=
  ∀ o op i (m : BitVec s.wA.bits), form o = some (op, i) → OperandIs s s.wA o m →
    Encodes s (op :: o.encoded) i ∧
    ∃ c p, AccIs s.c c s.wA (res m) ∧ StatusIs s.p p (flags m) ∧
      exec i s = .next { s with pc := s.pcn (1 + o.encoded.length), c := c, p := p }

/-- One of the reading instructions that writes nothing but status bits and PC. -/
def WritesStatus (form : Source → Option (Byte × Instr)) (s : State) (w : Width)
    (flags : BitVec w.bits → List (Nat × Bool)) : Prop :=
  ∀ o op i (m : BitVec w.bits), form o = some (op, i) → OperandIs s w o m →
    Encodes s (op :: o.encoded) i ∧
    ∃ p, StatusIs s.p p (flags m) ∧ exec i s = .next { s with pc := s.pcn (1 + o.encoded.length), p := p }

/-- One of the storing instructions: for every form of it, whose address is `ea`, the form's bytes are that instruction; it
stores `v` in RAM there, or writes it to the device there, low byte first, and changes nothing else but PC. -/
def Stores (form : MemMode → Option (Byte × Instr)) (s : State) (w : Width) (v : BitVec w.bits) : Prop :=
  ∀ o op i ea, form o = some (op, i) → o.ea s = .ok ea →
    Encodes s (op :: o.encoded) i ∧
    (s.CanWrite ea w.bytes →
      ∃ m, StoredAt s.mem m ea w v ∧ exec i s = .next { s with pc := s.pcn (1 + o.encoded.length), mem := m }) ∧
    (s.OnDevice o.access ea w.bytes →
      exec i s = .next { s with
        pc := s.pcn (1 + o.encoded.length), deviceWrites := writesOf ea w v ++ s.deviceWrites })

/-- One of the instructions that change a memory operand at `ea` from `v` to `res v`, in RAM or on a device that takes it,
where the high byte is written first, with the status bits of `flags v`. -/
def ChangesMemory (form : MemMode → Option (Byte × Instr)) (s : State) (res : BitVec s.wA.bits → BitVec s.wA.bits)
    (flags : BitVec s.wA.bits → List (Nat × Bool)) : Prop :=
  ∀ o op i ea, form o = some (op, i) → o.ea s = .ok ea →
    let v := s.valueAt .exposed ea s.wA
    Encodes s (op :: o.encoded) i ∧
    (s.CanWrite ea s.wA.bytes →
      ∃ m p, StoredAt s.mem m ea s.wA (res v) ∧ StatusIs s.p p (flags v) ∧
        exec i s = .next { s with pc := s.pcn (1 + o.encoded.length), mem := m, p := p }) ∧
    (s.OnDevice .exposed ea s.wA.bytes →
      ∃ p, StatusIs s.p p (flags v) ∧
        exec i s = .next { s with
          pc := s.pcn (1 + o.encoded.length), p := p
          deviceWrites := (writesOf ea s.wA (res v)).reverse ++ s.deviceWrites })

/-- One of the instructions that change their operand, the accumulator or memory, from `v` to `res v` with the status bits of
`flags v`. -/
def Changes (form : Target → Option (Byte × Instr)) (s : State) (res : BitVec s.wA.bits → BitVec s.wA.bits)
    (flags : BitVec s.wA.bits → List (Nat × Bool)) : Prop :=
  (∀ op i, form .acc = some (op, i) →
    Encodes s [op] i ∧
    ∃ c p, AccIs s.c c s.wA (res (s.c.setWidth s.wA.bits)) ∧ StatusIs s.p p (flags (s.c.setWidth s.wA.bits)) ∧
      exec i s = .next { s with pc := s.pcn 1, c := c, p := p }) ∧
  ChangesMemory (fun o => form (.mem o)) s res flags

/-- The instruction `i`, of the bytes `bs`, pushes `pushed` and changes nothing else but S and PC. -/
def PushesBytes (s : State) (bs : List Byte) (i : Instr) (pushed : List Byte) : Prop :=
  s.CanWrite s.slot pushed.length →
    Encodes s bs i ∧
    ∃ m, PushedAt s m pushed ∧
      exec i s = .next { s with pc := s.pcn bs.length, mem := m, s := s.spDown pushed.length }

/-- The bytes of a datum in the order a push stores them: high byte first (R68). -/
def highFirst : (w : Width) → BitVec w.bits → List Byte
  | .w8, v => [v]
  | .w16, v => [hi v, lo v]

end Sys2Proof.Machine

/-- The opcode byte of an instruction (R105). -/
def Sys2Proof.Instr.opcode (i : Sys2Proof.Instr) : Sys2Proof.Byte := (Sys2Proof.encode i).headD 0
end

