-- ==== Sys2Proof/Certificates/Slice0/Obligations.lean ====
section
/-!
DEFINITION. The statements for the provers. Each says in its docstring which rules of spec/ it states; the vocabulary is
that of Claims.lean and Forms.lean. A statement that rests on a value or a behaviour the model chose says so and names the
log entry; `D<n>` names a decision of spec/92_eei_decisions.md.
-/
open Sys2Proof Sys2Proof.Machine

/-! ### Encoding -/

/-- Decoding the bytes of a well-formed instruction gives it back, whatever follows it, under the flags it is well-formed
for (R101, R102, R103, R105, R111). The spec marks as its own: R101 D1; R111 D19. -/
def Obligations.EncodeThenDecode : Prop :=
  ∀ (i : Instr) (m x : Bool) (rest : List Byte),
    i.wellFormed m x = true → decode m x (encode i ++ rest) = .ok (i, rest)

/-- What a decoder answers is well-formed, and its encoding and the bytes left over are the bytes it was given: no bit of an
instruction is dropped (R101, R102, R103). The spec marks as its own: R101 D1. -/
def Obligations.DecodeThenEncode : Prop :=
  ∀ (m x : Bool) (bs rest : List Byte) (i : Instr),
    decode m x bs = .ok (i, rest) → i.wellFormed m x = true ∧ encode i ++ rest = bs

/-- Every value of the opcode byte and of every operand byte is an instruction, as long as R102 says: the twelve immediates
two bytes when their flag is 1 and three when it is 0; of the others, one byte for the implied and accumulator forms, two
for BRK, COP, WDM, REP, SEP and the direct-page, stack-relative and relative forms, three for PEA, the absolute forms and
their indirect ones, BRL, PER and the block moves, four for the long forms (R101, R102, R108). The spec marks as its own:
R101 D1; R108 D26. -/
def Obligations.EveryByteValueDecodes : Prop :=
  (∀ (m x : Bool) (op b1 b2 b3 : Byte) (rest : List Byte), ∃ i,
    decode m x (op :: b1 :: b2 :: b3 :: rest) = .ok (i, (op :: b1 :: b2 :: b3 :: rest).drop (lengthOf m x op)) ∧
    i.opcode = op) ∧
  ∀ (m x : Bool) (op : Byte), lengthOf m x op =
    if op ∈ ([0x09, 0x29, 0x49, 0x69, 0x89, 0xA9, 0xC9, 0xE9] : List Byte) then (if m then 2 else 3)
    else if op ∈ ([0xA0, 0xA2, 0xC0, 0xE0] : List Byte) then (if x then 2 else 3)
    else if op ∈ oneByteOpcodes then 1
    else if op ∈ twoByteOpcodes then 2
    else if op ∈ threeByteOpcodes then 3
    else if op ∈ fourByteOpcodes then 4
    else 0

/-- Words written out from the examples of the spec decode to the instructions they stand for (R62, R102, R103, R111, R153,
R460). The spec marks as its own: R62 D1; R111 D19. -/
def Obligations.ListedWordsDecode : Prop :=
  decode false true [0xA9, 0x34, 0x12] = .ok (.ldaImm (.word 0x1234), []) ∧
  decode true true [0xAD, 0x34, 0x12] = .ok (.ldaAbs 0x1234, []) ∧
  decode true true [0xAF, 0x56, 0x34, 0x12] = .ok (.ldaLong 0x123456, []) ∧
  decode true true [0x54, 0x7F, 0x7E] = .ok (.mvn 0x7F 0x7E, []) ∧
  decode true true [0xD0, 0xFE] = .ok (.bne 0xFE, []) ∧
  decode true true [0xF4, 0x34, 0x12] = .ok (.pea 0x1234, []) ∧
  decode true true [0xA9, 0x00, 0xE8] = .ok (.ldaImm (.byte 0x00), [0xE8]) ∧
  decode false true [0xA9, 0x00, 0xE8] = .ok (.ldaImm (.word 0xE800), []) ∧
  decode true true [0x22, 0x00, 0x80, 0x7E] = .ok (.jsl 0x7E8000, []) ∧
  decode true true [0x62, 0x10, 0x00] = .ok (.per 0x0010, [])

/-! ### The step -/

/-- When nothing is asserted or pending and the bytes at PBR:PC decode, under the flags of the moment, to `i`, the step is
`exec i` of the same state with this boundary's inputs used up and the free values drawn anew (R104, R405; the list of
inputs is the model's, log 1, and so is the counter of the free values, log 6 and log 24). The spec marks as its own: R104
D7; R405 D11, D35. -/
def Obligations.StepRunsDecodedInstruction : Prop :=
  ∀ (s : State) (i : Instr) (n : Nat),
    let u := { s with inputs := s.inputs.tail, draw := s.draw + 1 }
    s.run = .running → s.nmiPending = false → s.input.abort = false → s.input.reset = false → s.input.nmiEdge = false →
    (s.input.irq = true → s.flagI = true) →
    n = lengthOf s.flagM s.flagX (u.seen .fetch (s.fetchAddr 0)) →
    s.CanRead .fetch s.fetchAddr n →
    decode s.flagM s.flagX (u.codeBytes n) = .ok (i, []) →
    step s = exec i u

/-- A platform that asserts ABORT is refused (R404); that it is refused also where RESET is asserted with it, which R406
puts first, is log 11 (DESIGN CHOICE). The spec marks as its own: R404 D9; R406 D11. -/
def Obligations.AssertedAbortRefused : Prop :=
  ∀ s : State, s.input.abort = true → step s = .refused .abortAsserted

/-- A boundary with RESET asserted performs the reset sequence whatever RUN is and whatever else is asserted: PC is the word
that the RESET vector of VECTORS holds in the memory after the reset; every byte that is not RAM stays as it was; the memory
map and the vectors stay. Of the values that R450 leaves unspecified, RAM among them, nothing is stated: they are free
values (log 6). The parameter HAS_ABORT is false (R69, R401, R450); the vector stays in bank 0 by D2 (log 7). The used up
inputs, the kept record of device writes and the counter of the free values are the model's (log 1, log 24, log 6). The spec
marks as its own: R69 D31; R401 D9; R450 D12. -/
def Obligations.ResetLineResets : Prop :=
  ∀ s : State, s.input.abort = false → s.input.reset = true →
    s.CanRead .vector (vectorEA s.vectors.emuReset) 2 →
    ∃ t, step s = .next t ∧ t.e = true ∧ t.flagM = true ∧ t.flagX = true ∧ t.flagI = true ∧ t.flagD = false ∧
      hi t.x = 0 ∧ hi t.y = 0 ∧ hi t.s = 0x01 ∧ t.d = 0 ∧ t.dbr = 0 ∧ t.pbr = 0 ∧ t.run = .running ∧
      t.nmiPending = false ∧ t.pc = t.valueAt .vector (vectorEA s.vectors.emuReset) .w16 ∧
      (∀ a : Addr, ¬s.Writable a → t.byteAt a = s.byteAt a) ∧
      t.memMap = s.memMap ∧ t.vectors = s.vectors ∧ t.inputs = s.inputs.tail ∧ t.deviceWrites = s.deviceWrites ∧
      t.draw = s.draw + 1

/-- Without RESET a stopped core stays as it is, but for the NMI latch; a waiting core with no NMI and no asserted IRQ too;
a waiting core with an asserted but masked IRQ runs again, and nothing else changes (R405, R420; the list of inputs and the
counter of the free values are the model's, log 1, log 6). The spec marks as its own: R405 D11, D35; R420 D20, D32. -/
def Obligations.WaitAndStopHoldTheCore : Prop :=
  ∀ s : State, s.input.abort = false → s.input.reset = false →
    (s.run = .stopped →
      step s = .next { s with
        inputs := s.inputs.tail, draw := s.draw + 1, nmiPending := s.nmiPending || s.input.nmiEdge }) ∧
    (s.run = .waiting → s.nmiPending = false → s.input.nmiEdge = false → s.input.irq = false →
      step s = .next { s with inputs := s.inputs.tail, draw := s.draw + 1 }) ∧
    (s.run = .waiting → s.nmiPending = false → s.input.nmiEdge = false → s.input.irq = true → s.flagI = true →
      step s = .next { s with inputs := s.inputs.tail, draw := s.draw + 1, run := .running })

/-- A pending or arriving NMI is taken at the boundary of a core that is not stopped, before any IRQ and whatever P.I is:
the latch is cleared, the core runs, and entry returns to PC, with bit 4 of the pushed status byte 0 in emulation mode (R68,
R403, R405, R406, R411, R412; the vector stays in bank 0 by D2, log 7; the inputs used up and the counter of the free values
are the model's, log 1, log 6). The spec marks as its own: R68 D5, D6; R403 D9; R405 D11, D35; R406 D11; R411 D10; R412 D33,
D34. -/
def Obligations.NmiTakenAtBoundary : Prop :=
  ∀ s : State, s.input.abort = false → s.input.reset = false → s.run ≠ .stopped →
    (s.nmiPending = true ∨ s.input.nmiEdge = true) → s.CanEnter .nmi →
    ∃ t, step s = .next t ∧
      Entered .nmi s.pc { s with
        inputs := s.inputs.tail, draw := s.draw + 1, nmiPending := false, run := .running } t

/-- An asserted IRQ that P.I does not mask is taken at the boundary of a running or waiting core when no NMI is there, with
bit 4 of the pushed status byte 0 in emulation mode (R68, R402, R405, R406, R411, R412; the vector stays in bank 0 by D2,
log 7; the inputs used up and the counter of the free values are the model's, log 1, log 6). The spec marks as its own: R68
D5, D6; R402 D9; R405 D11, D35; R406 D11; R411 D10; R412 D33, D34. -/
def Obligations.IrqTakenAtBoundary : Prop :=
  ∀ s : State, s.input.abort = false → s.input.reset = false → s.run ≠ .stopped → s.nmiPending = false →
    s.input.nmiEdge = false → s.input.irq = true → s.flagI = false → s.CanEnter .irq →
    ∃ t, step s = .next t ∧ Entered .irq s.pc { s with
        inputs := s.inputs.tail, draw := s.draw + 1, run := .running } t

/-- BRK and COP take their exception, with the address after the signature byte (R68, R340, R341, R411, R412; the vector
stays in bank 0 by D2, log 7). The spec marks as its own: R68 D5, D6; R340 D29; R411 D10; R412 D33, D34. -/
def Obligations.BrkAndCopEnter : Prop :=
  ∀ (s : State) (sig : Byte),
    (s.CanEnter .brk → Encodes s [0x00, sig] (.brk sig) ∧
      ∃ t, exec (.brk sig) s = .next t ∧ Entered .brk (s.pcn 2) s t) ∧
    (s.CanEnter .cop → Encodes s [0x02, sig] (.cop sig) ∧
      ∃ t, exec (.cop sig) s = .next t ∧ Entered .cop (s.pcn 2) s t)

/-- Each event has the address of its row of VECTORS, whatever the platform's addresses are; the bytes of a vector lie in
bank 0 and wrap there; and after reset the ten addresses are the defaults that R410 states, those of ABORT among them (R61,
R63, R410; that the word wraps is D2, log 7; that State.reset takes the defaults is log 7). The spec marks as its own: R61
from general knowledge; R63 D2; R410 D8. -/
def Obligations.VectorsAreTheDefaults : Prop :=
  (∀ v : Vectors,
    (vectorOf v false .cop, vectorOf v false .brk, vectorOf v false .nmi, vectorOf v false .irq) =
      (v.nativeCop, v.nativeBrk, v.nativeNmi, v.nativeIrq) ∧
    (vectorOf v true .cop, vectorOf v true .brk, vectorOf v true .nmi, vectorOf v true .irq) =
      (v.emuCop, v.emuIrqBrk, v.emuNmi, v.emuIrqBrk)) ∧
  (∀ (v : Word) (k : Nat), (vectorEA v k).toNat = (v.toNat + k) % 2 ^ 16) ∧
  State.reset.vectors = {
    nativeCop := 0xFFE4, nativeBrk := 0xFFE6, nativeAbort := 0xFFE8, nativeNmi := 0xFFEA, nativeIrq := 0xFFEE
    emuCop := 0xFFF4, emuAbort := 0xFFF8, emuNmi := 0xFFFA, emuReset := 0xFFFC, emuIrqBrk := 0xFFFE }

/-- RTI right after the entry of any event undoes it: the status byte, S, the interrupted address and, in native mode, PBR
are those of before entry; in emulation mode, where no bank was pushed, PBR stays 0. The premise is the invariant of R38
(R68, R283, R411, R413). The spec marks as its own: R68 D5, D6; R283 D18; R411 D10. -/
def Obligations.RtiUndoesEntry : Prop :=
  ∀ (k : Event) (r : Word) (s t : State), s.Inv → s.CanWrite s.slot (if s.e then 3 else 4) → Entered k r s t →
    exec .rti t = .next { s with mem := t.mem, pc := r, pbr := if s.e then 0 else s.pbr }

/-! ### Invariants -/

/-- The state after reset meets the invariant, and holds the values R42 gives (R38, R42). The spec marks as its own: R38
D17; R42 D12, D28. -/
def Obligations.ResetMeetsInvariant : Prop :=
  State.reset.Inv ∧ State.reset.e = true ∧ State.reset.flagM = true ∧ State.reset.flagX = true ∧
  State.reset.flagI = true ∧ State.reset.flagD = false ∧ hi State.reset.s = 0x01 ∧ State.reset.d = 0 ∧
  State.reset.dbr = 0 ∧ State.reset.pbr = 0 ∧ State.reset.run = .running ∧ State.reset.nmiPending = false ∧
  State.reset.pc = State.reset.valueAt .vector (vectorEA 0xFFFC) .w16

/-- Every step keeps the three invariants of R38: the forced widths and the stack page of emulation mode, and the zero high
bytes of 8-bit index registers (R38). The spec marks as its own: R38 D17. -/
def Obligations.StepKeepsInvariant : Prop :=
  ∀ s t : State, s.WidthsForced → s.StackForced → s.IndexNarrow → step s = .next t →
    t.WidthsForced ∧ t.StackForced ∧ t.IndexNarrow

/-- Every step keeps the canonical form of memory. The form is the model's, of its own list of bytes (log 4), not a rule of
the spec. -/
def Obligations.StepKeepsMemoryCanonical : Prop :=
  ∀ s t : State, s.mem.wf = true → step s = .next t → t.mem.wf = true

/-! ### Which instructions write what -/

/-- E is written by XCE alone; P.M and P.X by REP, SEP, PLP, RTI and XCE alone (R31, R32, R37). -/
def Obligations.OnlyModeInstructionsChangeWidths : Prop :=
  ∀ (i : Instr) (s t : State), exec i s = .next t →
    (t.e ≠ s.e → i.mnemonic = .xce) ∧
    (t.flagM ≠ s.flagM ∨ t.flagX ≠ s.flagX → i.mnemonic ∈ [.rep, .sep, .plp, .rti, .xce])

/-- D is written by TCD and PLD alone, DBR by PLB, MVN and MVP alone, PBR by JML, JSL, RTL, RTI and the entries of BRK and
COP alone (R24, R25, R26). -/
def Obligations.BaseAndBankRegisterWriters : Prop :=
  ∀ (i : Instr) (s t : State), exec i s = .next t →
    (t.d ≠ s.d → i.mnemonic ∈ [.tcd, .pld]) ∧
    (t.dbr ≠ s.dbr → i.mnemonic ∈ [.plb, .mvn, .mvp]) ∧
    (t.pbr ≠ s.pbr → i.mnemonic ∈ [.jml, .jsl, .rtl, .rti, .brk, .cop])

/-- The writers of the accumulator, of X and Y, and of S are those R21, R22 and R23 list; X and Y also lose their high bytes
when P.X becomes 1. The premise is the invariant of R38: without it REP in emulation mode would clear them too. The spec
marks as its own: R21 D17; R22 D17. -/
def Obligations.DataRegisterWriters : Prop :=
  ∀ (i : Instr) (s t : State), s.Inv → exec i s = .next t →
    (t.c ≠ s.c → i.mnemonic ∈ [.lda, .adc, .sbc, .and, .ora, .eor, .pla, .txa, .tya, .tsc, .tdc, .xba, .mvn, .mvp] ∨
      i ∈ [Instr.aslAcc, .lsrAcc, .rolAcc, .rorAcc, .incAcc, .decAcc]) ∧
    (t.x ≠ s.x → i.mnemonic ∈ [.ldx, .plx, .tax, .tsx, .tyx, .inx, .dex, .mvn, .mvp, .sep, .plp, .rti, .xce]) ∧
    (t.y ≠ s.y → i.mnemonic ∈ [.ldy, .ply, .tay, .txy, .iny, .dey, .mvn, .mvp, .sep, .plp, .rti, .xce]) ∧
    (t.s ≠ s.s → i.mnemonic ∈ [.txs, .tcs, .pha, .phx, .phy, .phb, .phd, .phk, .php, .pla, .plx, .ply, .plb, .pld, .plp,
      .jsr, .jsl, .rts, .rtl, .rti, .pea, .pei, .per, .brk, .cop, .xce])

/-- The writers of V, D, I and C among the instructions are those of R30, R33, R34 and R36; N and Z have those of R29 and
R35 (R29, R30, R33, R34, R35, R36; that TCD is among them is log 9). The spec marks as its own: R33 derived by the spec. -/
def Obligations.StatusBitWriters : Prop :=
  ∀ (i : Instr) (s t : State), exec i s = .next t →
    (t.flagV ≠ s.flagV → i.mnemonic ∈ [.adc, .sbc, .bit, .clv, .plp, .rti, .rep, .sep]) ∧
    (t.flagD ≠ s.flagD → i.mnemonic ∈ [.sed, .cld, .brk, .cop, .plp, .rti, .rep, .sep]) ∧
    (t.flagI ≠ s.flagI → i.mnemonic ∈ [.sei, .cli, .brk, .cop, .plp, .rti, .rep, .sep]) ∧
    (t.flagC ≠ s.flagC → i.mnemonic ∈ [.adc, .sbc, .cmp, .cpx, .cpy, .asl, .lsr, .rol, .ror, .clc, .sec, .xce, .plp, .rti,
      .rep, .sep]) ∧
    (t.flagN ≠ s.flagN → i.mnemonic ∈ [.lda, .ldx, .ldy, .adc, .sbc, .and, .ora, .eor, .asl, .lsr, .rol, .ror, .inc, .inx,
      .iny, .dec, .dex, .dey, .cmp, .cpx, .cpy, .pla, .plx, .ply, .plb, .pld, .tsc, .tdc, .tsx, .tax, .tay, .txa, .tya,
      .txy, .tyx, .tcd, .xba, .bit, .plp, .rti, .rep, .sep]) ∧
    (t.flagZ ≠ s.flagZ → i.mnemonic ∈ [.lda, .ldx, .ldy, .adc, .sbc, .and, .ora, .eor, .asl, .lsr, .rol, .ror, .inc, .inx,
      .iny, .dec, .dex, .dey, .cmp, .cpx, .cpy, .pla, .plx, .ply, .plb, .pld, .tsc, .tdc, .tsx, .tax, .tay, .txa, .tya,
      .txy, .tyx, .tcd, .xba, .bit, .tsb, .trb, .plp, .rti, .rep, .sep])

/-- No instruction touches the NMI latch, and only WAI and STP write RUN (R41, R402, R403); none touches the memory map, the
vectors, the coming inputs or the counter of the free values, which are the model's own fields (log 2 with R69, log 7, log
1, log 6). The spec marks as its own: R41 from general knowledge; R69 D31; R402 D9; R403 D9. -/
def Obligations.InstructionsLeaveThePlatformAlone : Prop :=
  ∀ (i : Instr) (s t : State), exec i s = .next t →
    t.nmiPending = s.nmiPending ∧ t.memMap = s.memMap ∧ t.vectors = s.vectors ∧ t.inputs = s.inputs ∧
    t.draw = s.draw ∧ (t.run ≠ s.run → i.mnemonic ∈ [.wai, .stp])

/-- Only the stores, the read-modify-write instructions on memory, the block moves, the pushes, the calls, BRK and COP
change a byte of memory or write to a device (R65; the record of device writes is the model's, log 24). The spec marks as
its own: R65 D35. -/
def Obligations.OnlyStoringInstructionsWriteMemory : Prop :=
  ∀ (i : Instr) (s t : State), exec i s = .next t →
    (∃ a : Addr, t.byteAt a ≠ s.byteAt a) ∨ t.deviceWrites ≠ s.deviceWrites →
    i.mnemonic ∈ [.sta, .stx, .sty, .stz, .asl, .lsr, .rol, .ror, .inc, .dec, .tsb, .trb, .mvn, .mvp, .pha, .phx, .phy,
      .phb, .phd, .phk, .php, .pea, .pei, .per, .jsr, .jsl, .brk, .cop] ∧
    i ∉ [Instr.aslAcc, .lsrAcc, .rolAcc, .rorAcc, .incAcc, .decAcc]

/-- On a platform whose whole address space is RAM every instruction completes, in every mode, at every width and alignment:
there is no illegal, misaligned or privileged case (R64, R108, R400, R431). The spec marks as its own: R64 D27; R108 D26;
R400 from general knowledge; R431 derived by the spec. -/
def Obligations.EveryInstructionCompletesOnRam : Prop :=
  ∀ (i : Instr) (s : State), s.AllRam → ∃ t, exec i s = .next t

/-- There is no fault to stop with, and an instruction is refused only at a byte MEM does not admit. A byte read is refused
exactly at an unmapped address and, for an indexed, indirect or read-modify-write access, in a device region with read side
effects and no word that dummy cycles are harmless; a byte write there too and in ROM. Elsewhere RAM and ROM answer what
they hold, RAM takes the byte, a device answers a free value and has the write recorded. A load, a store or a fetch whose
bytes are refused is refused (R69, R70, R400, R475; which accesses count as indexed or indirect, the free value and the
record are the model's: log 3, log 24). The spec marks as its own: R69 D31; R70 D31; R400 from general knowledge; R475 D9,
D31. -/
def Obligations.InstructionsStopOnlyAtTheMap : Prop :=
  (∀ s f, step s ≠ .fault f) ∧
  (∀ (i : Instr) (s : State), (∀ f, exec i s ≠ .fault f) ∧ ∀ r, exec i s = .refused r → ∃ a : Addr,
    (r = .unmapped a ∧ kindAt s.memMap a.toNat = none) ∨ (r = .romWrite a ∧ kindAt s.memMap a.toNat = some .rom) ∨
    (r = .deviceAccess a ∧ kindAt s.memMap a.toNat = some (.device true false))) ∧
  (∀ (s : State) (k : Access) (a : Addr) (v : Byte),
    (kindAt s.memMap a.toNat = none → read8 s k a = .error (.unmapped a) ∧ write8 s k a v = .error (.unmapped a)) ∧
    (kindAt s.memMap a.toNat = some .rom → read8 s k a = .ok (s.byteAt a) ∧ write8 s k a v = .error (.romWrite a)) ∧
    (kindAt s.memMap a.toNat = some .ram → read8 s k a = .ok (s.byteAt a) ∧
      ∃ m, StoredAt s.mem m (fun _ => a) .w8 v ∧ write8 s k a v = .ok { s with mem := m }) ∧
    ∀ effects harmless, kindAt s.memMap a.toNat = some (.device effects harmless) →
      if (k = .pointer ∨ k = .exposed) ∧ effects = true ∧ harmless = false
      then read8 s k a = .error (.deviceAccess a) ∧ write8 s k a v = .error (.deviceAccess a)
      else read8 s k a = .ok (Config.deviceByte s.deviceWrites s.draw k a) ∧
        write8 s k a v = .ok { s with deviceWrites := (a.toNat, v) :: s.deviceWrites }) ∧
  (∀ (s : State) (o : MemMode) (op : Byte) (i : Instr) (ea : EA) (r : Refusal), o.ea s = .ok ea →
    (ldaForm (.mem o) = some (op, i) → readW s o.access ea s.wA = .error r → exec i s = .refused r) ∧
    (staForm o = some (op, i) → storeW s o.access ea s.wA (s.c.setWidth s.wA.bits) = .error r → exec i s = .refused r)) ∧
  ∀ (s : State) (r : Refusal), s.Executes → read8 s.sample .fetch (s.fetchAddr 0) = .error r → step s = .refused r

/-! ### Memory and the stack -/

/-- What a store puts in RAM at two different addresses a load of the same width gives back, its low byte at the lower
index, whatever the load is for; a byte the store does not cover reads as before (R62, R71). The spec marks as its own: R62
D1; R71 D21. -/
def Obligations.StoreThenLoad : Prop :=
  ∀ (s t : State) (k l : Access) (ea : EA) (w : Width) (v : BitVec w.bits), ea 0 ≠ ea 1 → s.CanWrite ea w.bytes →
    storeW s k ea w v = .ok t →
    readW t l ea w = .ok v ∧ read8 t l (ea 0) = .ok (v.setWidth 8) ∧
    (w = .w16 → read8 t l (ea 1) = .ok (v.extractLsb' 8 8)) ∧
    ∀ a : Addr, (∀ k, k < w.bytes → a ≠ ea k) → t.byteAt a = s.byteAt a

/-- The stack primitives: a push writes at `00:S` and then takes S down, in emulation mode SL alone; the high byte of a word
goes first; a pull right after a push to RAM gives the value back and restores S (R23, R68). The spec marks as its own: R68
D5, D6. -/
def Obligations.StackPrimitives : Prop :=
  (∀ (s : State) (k : Nat),
    s.spDown k = (if s.e then word (hi s.s) (lo s.s - BitVec.ofNat 8 k) else s.s - BitVec.ofNat 16 k) ∧
    s.spUp k = (if s.e then word (hi s.s) (lo s.s + BitVec.ofNat 8 k) else s.s + BitVec.ofNat 16 k)) ∧
  (∀ (s : State) (v : Word), s.CanWrite s.slot 2 →
    ∃ m, PushedAt s m [hi v, lo v] ∧ push16 s v = .ok { s with mem := m, s := s.spDown 2 }) ∧
  (∀ (s t : State) (v : Byte), s.CanWrite s.slot 1 → push8 s v = .ok t →
    t.byteAt (addr 0 s.s) = v ∧ pull8 t = .ok (v, { t with s := s.s })) ∧
  ∀ (s t : State) (v : Word), s.CanWrite s.slot 2 → push16 s v = .ok t → pull16 t = .ok (v, { t with s := s.s })

/-! ### Addressing modes -/

/-- The absolute and long modes address byte `k` of their operand by a 24-bit sum that carries into the bank (R131, R133,
R135, R136, R137, R139). The spec marks as its own: R131 D17; R133 D2; R135 D3; R136 D3; R137 D2; R139 D3. -/
def Obligations.AbsoluteAndLongAddresses : Prop :=
  ∀ (s : State) (a : Word) (l : Addr),
    (∃ ea, MemMode.ea s (.abs a) = .ok ea ∧
      ∀ k, (ea k).toNat = (s.dbr.toNat * 65536 + a.toNat + k) % 2 ^ 24) ∧
    (∃ ea, MemMode.ea s (.absX a) = .ok ea ∧
      ∀ k, (ea k).toNat = (s.dbr.toNat * 65536 + a.toNat + s.x.toNat + k) % 2 ^ 24) ∧
    (∃ ea, MemMode.ea s (.absY a) = .ok ea ∧
      ∀ k, (ea k).toNat = (s.dbr.toNat * 65536 + a.toNat + s.y.toNat + k) % 2 ^ 24) ∧
    (∃ ea, MemMode.ea s (.long l) = .ok ea ∧ ∀ k, (ea k).toNat = (l.toNat + k) % 2 ^ 24) ∧
    (∃ ea, MemMode.ea s (.longX l) = .ok ea ∧ ∀ k, (ea k).toNat = (l.toNat + s.x.toNat + k) % 2 ^ 24)

/-- The direct-page and stack-relative modes stay in bank 0 and wrap at 16 bits; in emulation mode with `DL = 0` the direct
page wraps inside its page (R130, R140, R141, R142, R151; that the parameter EMU_DP_PAGE_WRAP is true is log 8). The spec
marks as its own: R130 D4; R141 D4; R151 D4. -/
def Obligations.DirectPageAndStackAddresses : Prop :=
  ∀ (s : State) (o : Byte),
    let at_ (ea : EA) (n : Nat) := ∀ k, (ea k).toNat =
      if s.e = true ∧ lo s.d = 0 then (hi s.d).toNat * 256 + (n + k) % 256 else (s.d.toNat + n + k) % 2 ^ 16
    (∃ ea, MemMode.ea s (.dp o) = .ok ea ∧ at_ ea o.toNat) ∧
    (∃ ea, MemMode.ea s (.dpX o) = .ok ea ∧ at_ ea (o.toNat + s.x.toNat)) ∧
    (∃ ea, MemMode.ea s (.dpY o) = .ok ea ∧ at_ ea (o.toNat + s.y.toNat)) ∧
    (∃ ea, MemMode.ea s (.sr o) = .ok ea ∧ ∀ k, (ea k).toNat = (s.s.toNat + o.toNat + k) % 2 ^ 16)

/-- The indirect modes read their pointer, two bytes or three, where R143 to R147 and R152 say, and address their operand
from it: a 16-bit pointer in the data bank, the index added at 24 bits (R143, R144, R145, R146, R147, R152). The spec marks
as its own: R143 D2; R144 D2, D4; R145 D3; R146 D2; R147 D3; R152 D2, D3. -/
def Obligations.IndirectAddresses : Prop :=
  ∀ (s : State) (o : Byte),
    let data (ptr : Word) (i k : Nat) := (s.dbr.toNat * 65536 + ptr.toNat + i + k) % 2 ^ 24
    (s.CanRead .pointer (dpw s o.toNat) 2 →
      (∃ ea, MemMode.ea s (.dpInd o) = .ok ea ∧ ∀ k, (ea k).toNat = data (s.valueAt .pointer (dpw s o.toNat) .w16) 0 k) ∧
      (∃ ea, MemMode.ea s (.dpIndY o) = .ok ea ∧
        ∀ k, (ea k).toNat = data (s.valueAt .pointer (dpw s o.toNat) .w16) s.y.toNat k)) ∧
    (s.CanRead .pointer (dpw s (o.toNat + s.x.toNat)) 2 →
      ∃ ea, MemMode.ea s (.dpXInd o) = .ok ea ∧
        ∀ k, (ea k).toNat = data (s.valueAt .pointer (dpw s (o.toNat + s.x.toNat)) .w16) 0 k) ∧
    (s.CanRead .pointer (dpn s o.toNat) 3 →
      (∃ ea, MemMode.ea s (.dpIndLong o) = .ok ea ∧
        ∀ k, (ea k).toNat = ((s.pointerAt (dpn s o.toNat)).toNat + k) % 2 ^ 24) ∧
      (∃ ea, MemMode.ea s (.dpIndLongY o) = .ok ea ∧
        ∀ k, (ea k).toNat = ((s.pointerAt (dpn s o.toNat)).toNat + s.y.toNat + k) % 2 ^ 24)) ∧
    (s.CanRead .pointer (bankAddr 0 (s.s + o.setWidth 16)) 2 →
      ∃ ea, MemMode.ea s (.srIndY o) = .ok ea ∧
        ∀ k, (ea k).toNat = data (s.valueAt .pointer (bankAddr 0 (s.s + o.setWidth 16)) .w16) s.y.toNat k)

/-! ### Loads and stores -/

/-- LDA loads its operand at the accumulator width, keeps B at 8 bits, and sets N and Z (R170). -/
def Obligations.LdaLoads : Prop := ∀ s, WritesAcc ldaForm s id nz

/-- LDX and LDY load at the index width, the high byte zero at 8 bits, and set N and Z (R171, R172). -/
def Obligations.LdxAndLdyLoad : Prop :=
  ∀ (s : State) (o : Source) (op : Byte) (i : Instr) (m : BitVec s.wI.bits), OperandIs s s.wI o m →
    (ldxForm o = some (op, i) → Encodes s (op :: o.encoded) i ∧
      ∃ x p, IndexIs x s.wI m ∧ StatusIs s.p p (nz m) ∧
        exec i s = .next { s with pc := s.pcn (1 + o.encoded.length), x := x, p := p }) ∧
    (ldyForm o = some (op, i) → Encodes s (op :: o.encoded) i ∧
      ∃ y p, IndexIs y s.wI m ∧ StatusIs s.p p (nz m) ∧
        exec i s = .next { s with pc := s.pcn (1 + o.encoded.length), y := y, p := p })

/-- STA stores the accumulator and STZ zero at the width of P.M, STX and STY the index registers at the width of P.X, low
byte first, in memory or to a device; no flag changes (R66, R70, R173, R174, R175, R176; the record of device writes is log
24). The spec marks as its own: R66 D23; R70 D31. -/
def Obligations.StoresWriteTheirRegister : Prop :=
  ∀ s : State,
    Stores staForm s s.wA (s.c.setWidth s.wA.bits) ∧ Stores stzForm s s.wA 0 ∧
    Stores stxForm s s.wI (s.x.setWidth s.wI.bits) ∧ Stores styForm s s.wI (s.y.setWidth s.wI.bits)

/-! ### Arithmetic and logic -/

/-- Binary ADC: the sum with the carry, modulo the width; C is the carry out, V says that the signed sum does not fit (R190,
R197). -/
def Obligations.AdcAddsBinary : Prop :=
  ∀ s : State, s.flagD = false →
    WritesAcc adcForm s
      (fun m => BitVec.ofNat _ ((s.c.setWidth s.wA.bits).toNat + m.toNat + s.flagC.toNat))
      (fun m =>
        let a := s.c.setWidth s.wA.bits
        (0, decide (2 ^ s.wA.bits ≤ a.toNat + m.toNat + s.flagC.toNat)) ::
        (6, decide (¬ FitsSigned s.wA.bits (a.toInt + m.toInt + s.flagC.toNat))) ::
        nz (BitVec.ofNat s.wA.bits (a.toNat + m.toNat + s.flagC.toNat)))

/-- Binary SBC: the difference less the borrow, which is 1 when C is 0, modulo the width; C is 1 when no borrow goes out, V
says that the signed difference does not fit (R191, R197). The spec marks as its own: R191 D30. -/
def Obligations.SbcSubtractsBinary : Prop :=
  ∀ s : State, s.flagD = false →
    WritesAcc sbcForm s
      (fun m => BitVec.ofInt _ ((s.c.setWidth s.wA.bits).toNat - (m.toNat : Int) - (!s.flagC).toNat))
      (fun m =>
        let a := s.c.setWidth s.wA.bits
        (0, decide (m.toNat + (!s.flagC).toNat ≤ a.toNat)) ::
        (6, decide (¬ FitsSigned s.wA.bits (a.toInt - m.toInt - (!s.flagC).toNat))) ::
        nz (BitVec.ofInt s.wA.bits (a.toNat - (m.toNat : Int) - (!s.flagC).toNat)))

/-- Decimal ADC and SBC on operands whose digits are all at most 9: the result is the valid number whose decimal value is
the sum, or the difference less the borrow, modulo ten to the number of digits; C is the decimal carry, or no borrow; N and
Z describe the result; what V becomes is not stated (R192, R193). The spec marks as its own: R192 D13; R193 D13. -/
def Obligations.DecimalArithmetic : Prop :=
  ∀ (s : State) (o : Source) (op : Byte) (i : Instr) (m : BitVec s.wA.bits), s.flagD = true → OperandIs s s.wA o m →
    let k := s.wA.bits / 4
    let a := (s.c.setWidth s.wA.bits).toNat
    ValidBcd a k → ValidBcd m.toNat k →
    (adcForm o = some (op, i) →
      ∃ (r : BitVec s.wA.bits) (c : Word) (v : Bool) (p : Byte), ValidBcd r.toNat k ∧
        bcdValue r.toNat k = (bcdValue a k + bcdValue m.toNat k + s.flagC.toNat) % 10 ^ k ∧
        AccIs s.c c s.wA r ∧
        StatusIs s.p p ((0, decide (10 ^ k ≤ bcdValue a k + bcdValue m.toNat k + s.flagC.toNat)) :: (6, v) :: nz r) ∧
        exec i s = .next { s with pc := s.pcn (1 + o.encoded.length), c := c, p := p }) ∧
    (sbcForm o = some (op, i) →
      ∃ (r : BitVec s.wA.bits) (c : Word) (v : Bool) (p : Byte), ValidBcd r.toNat k ∧
        (bcdValue r.toNat k : Int) = ((bcdValue a k : Int) - bcdValue m.toNat k - (!s.flagC).toNat) % 10 ^ k ∧
        AccIs s.c c s.wA r ∧
        StatusIs s.p p ((0, decide (bcdValue m.toNat k + (!s.flagC).toNat ≤ bcdValue a k)) :: (6, v) :: nz r) ∧
        exec i s = .next { s with pc := s.pcn (1 + o.encoded.length), c := c, p := p })

/-- AND, ORA and EOR combine the accumulator with the operand bit by bit and set N and Z (R194, R195, R196); 39 of the 45
encodings are those R106 derives. The spec marks as its own: R106 D25. -/
def Obligations.LogicalInstructions : Prop :=
  ∀ s : State,
    let a := s.c.setWidth s.wA.bits
    WritesAcc andForm s (fun m => a &&& m) (fun m => nz (a &&& m)) ∧
    WritesAcc oraForm s (fun m => a ||| m) (fun m => nz (a ||| m)) ∧
    WritesAcc eorForm s (fun m => a ^^^ m) (fun m => nz (a ^^^ m))

/-- ASL and ROL double the operand, ROL adding the carry; LSR and ROR halve it, ROR putting the carry at the top; C is the
bit shifted out, N and Z describe the result; the operand is the accumulator, memory, or a device that takes the access,
high byte written first (R66, R70, R210, R211, R212, R213; the record of device writes is log 24). The spec marks as its
own: R66 D23; R70 D31. -/
def Obligations.ShiftsAndRotates : Prop :=
  ∀ s : State,
    let top (v : BitVec s.wA.bits) := v.getLsbD (s.wA.bits - 1)
    let asl (v : BitVec s.wA.bits) := BitVec.ofNat s.wA.bits (2 * v.toNat)
    let lsr (v : BitVec s.wA.bits) := BitVec.ofNat s.wA.bits (v.toNat / 2)
    let rol (v : BitVec s.wA.bits) := BitVec.ofNat s.wA.bits (2 * v.toNat + s.flagC.toNat)
    let ror (v : BitVec s.wA.bits) := BitVec.ofNat s.wA.bits (v.toNat / 2 + s.flagC.toNat * 2 ^ (s.wA.bits - 1))
    Changes aslForm s asl (fun v => (0, top v) :: nz (asl v)) ∧
    Changes lsrForm s lsr (fun v => (0, v.getLsbD 0) :: nz (lsr v)) ∧
    Changes rolForm s rol (fun v => (0, top v) :: nz (rol v)) ∧
    Changes rorForm s ror (fun v => (0, v.getLsbD 0) :: nz (ror v))

/-- INC and DEC add and subtract one modulo the width, on the accumulator, memory, or a device that takes the access, and
set N and Z alone; INX, INY, DEX, DEY do it at the index width (R66, R70, R220, R221, R222, R223, R224, R225; the record of
device writes is log 24). The spec marks as its own: R66 D23; R70 D31. -/
def Obligations.IncrementsAndDecrements : Prop :=
  ∀ s : State,
    Changes incForm s (fun v => v + 1) (fun v => nz (v + 1)) ∧
    Changes decForm s (fun v => v - 1) (fun v => nz (v - 1)) ∧
    (let xs := s.x.setWidth s.wI.bits
     let ys := s.y.setWidth s.wI.bits
     (Encodes s [0xE8] .inx ∧ ∃ x p, IndexIs x s.wI (xs + 1) ∧ StatusIs s.p p (nz (xs + 1)) ∧
        exec .inx s = .next { s with pc := s.pcn 1, x := x, p := p }) ∧
     (Encodes s [0xCA] .dex ∧ ∃ x p, IndexIs x s.wI (xs - 1) ∧ StatusIs s.p p (nz (xs - 1)) ∧
        exec .dex s = .next { s with pc := s.pcn 1, x := x, p := p }) ∧
     (Encodes s [0xC8] .iny ∧ ∃ y p, IndexIs y s.wI (ys + 1) ∧ StatusIs s.p p (nz (ys + 1)) ∧
        exec .iny s = .next { s with pc := s.pcn 1, y := y, p := p }) ∧
     (Encodes s [0x88] .dey ∧ ∃ y p, IndexIs y s.wI (ys - 1) ∧ StatusIs s.p p (nz (ys - 1)) ∧
        exec .dey s = .next { s with pc := s.pcn 1, y := y, p := p }))

/-- CMP, CPX and CPY write C for unsigned at least, Z for equal and N from the wrapped difference, and nothing else (R226,
R227, R228). -/
def Obligations.Compares : Prop :=
  ∀ s : State,
    let flags (w : Nat) (a m : BitVec w) := (0, decide (m.toNat ≤ a.toNat)) :: (7, (a - m).getLsbD (w - 1)) ::
      (1, decide (a = m)) :: []
    WritesStatus cmpForm s s.wA (flags s.wA.bits (s.c.setWidth s.wA.bits)) ∧
    WritesStatus cpxForm s s.wI (flags s.wI.bits (s.x.setWidth s.wI.bits)) ∧
    WritesStatus cpyForm s s.wI (flags s.wI.bits (s.y.setWidth s.wI.bits))

/-! ### Control flow -/

/-- The branches: PC is the next instruction's address, plus the signed offset when the flag has the value named, inside the
program bank; nothing else changes (R240 to R250). The spec marks as its own: R240 D7. -/
def Obligations.BranchesTaken : Prop :=
  ∀ (s : State) (rel : Byte) (rell : Word),
    (∀ r ∈ ([(0x10, .bpl rel, !s.flagN), (0x30, .bmi rel, s.flagN), (0x50, .bvc rel, !s.flagV), (0x70, .bvs rel, s.flagV),
        (0x90, .bcc rel, !s.flagC), (0xB0, .bcs rel, s.flagC), (0xD0, .bne rel, !s.flagZ), (0xF0, .beq rel, s.flagZ),
        (0x80, .bra rel, true)] : List (Byte × Instr × Bool)),
      Encodes s [r.1, rel] r.2.1 ∧
      exec r.2.1 s = .next { s with
        pc := if r.2.2 then BitVec.ofInt 16 (s.pc.toNat + 2 + rel.toInt) else s.pcn 2 }) ∧
    Encodes s [0x82, lo rell, hi rell] (.brl rell) ∧
    exec (.brl rell) s = .next { s with pc := BitVec.ofInt 16 (s.pc.toNat + 3 + rell.toInt) }

/-- The jumps: PC, and in the long forms PBR, come from the operand or from the pointer it names; `JMP (abs)` and `JML
[abs]` read their pointer in bank 0, `JMP (abs,X)` in the program bank (R251, R252, R253, R254, R255). The spec marks as its
own: R252 from general knowledge. -/
def Obligations.JumpsGoToTheirTarget : Prop :=
  ∀ (s : State) (a : Word) (l : Addr),
    (Encodes s [0x4C, lo a, hi a] (.jmpAbs a) ∧ exec (.jmpAbs a) s = .next { s with pc := a }) ∧
    (Encodes s (0x5C :: bytes3 l) (.jmlLong l) ∧
      exec (.jmlLong l) s = .next { s with pc := offsetOf l, pbr := bankOf l }) ∧
    (s.CanRead .pointer (fun k => addr 0 (a + BitVec.ofNat 16 k)) 2 →
      Encodes s [0x6C, lo a, hi a] (.jmpInd a) ∧
      exec (.jmpInd a) s = .next { s with pc := s.valueAt .pointer (fun k => addr 0 (a + BitVec.ofNat 16 k)) .w16 }) ∧
    (s.CanRead .pointer (fun k => addr s.pbr (a + s.x + BitVec.ofNat 16 k)) 2 →
      Encodes s [0x7C, lo a, hi a] (.jmpIndX a) ∧
      exec (.jmpIndX a) s =
        .next { s with pc := s.valueAt .pointer (fun k => addr s.pbr (a + s.x + BitVec.ofNat 16 k)) .w16 }) ∧
    (s.CanRead .pointer (fun k => addr 0 (a + BitVec.ofNat 16 k)) 3 →
      Encodes s [0xDC, lo a, hi a] (.jmlInd a) ∧
      exec (.jmlInd a) s = .next { s with
        pc := offsetOf (s.pointerAt fun k => addr 0 (a + BitVec.ofNat 16 k))
        pbr := bankOf (s.pointerAt fun k => addr 0 (a + BitVec.ofNat 16 k)) })

/-- The calls push the address of their own last byte (R284 marks that address D18), JSL the program bank before it, and go
to their target; the pointer of `JSR (abs,X)` is read after the push (R68, R256, R257, R258, R284); that JSL and JSR (abs,X)
stay in page 1 in emulation mode is log 14 (DEDUCED, U6). The spec marks as its own: R68 D5, D6; R257 from general
knowledge; R284 D18. -/
def Obligations.CallsPushAndJump : Prop :=
  ∀ (s : State) (a : Word) (l : Addr),
    (s.CanWrite s.slot 2 →
      Encodes s [0x20, lo a, hi a] (.jsrAbs a) ∧
      ∃ m, PushedAt s m [hi (s.pcn 2), lo (s.pcn 2)] ∧
        exec (.jsrAbs a) s = .next { s with pc := a, mem := m, s := s.spDown 2 }) ∧
    (s.CanWrite s.slot 2 → s.CanRead .pointer (fun k => addr s.pbr (a + s.x + BitVec.ofNat 16 k)) 2 →
      Encodes s [0xFC, lo a, hi a] (.jsrIndX a) ∧
      ∃ m, PushedAt s m [hi (s.pcn 2), lo (s.pcn 2)] ∧
        exec (.jsrIndX a) s = .next { s with
          pc := State.valueAt { s with mem := m } .pointer (fun k => addr s.pbr (a + s.x + BitVec.ofNat 16 k)) .w16
          mem := m
          s := s.spDown 2 }) ∧
    (s.CanWrite s.slot 3 →
      Encodes s (0x22 :: bytes3 l) (.jsl l) ∧
      ∃ m, PushedAt s m [s.pbr, hi (s.pcn 3), lo (s.pcn 3)] ∧
        exec (.jsl l) s = .next { s with pc := offsetOf l, pbr := bankOf l, mem := m, s := s.spDown 3 })

/-- RTS and RTL go to one more than the pulled address, RTL in the pulled bank (R68, R284, R285); that RTL stays in page 1
in emulation mode is log 14 (DEDUCED, U6). The spec marks as its own: R68 D5, D6; R284 D18; R285 D18. -/
def Obligations.ReturnsPullTheirTarget : Prop :=
  ∀ s : State,
    (s.CanRead .stack s.pullSlot 2 → Encodes s [0x60] .rts ∧
      exec .rts s = .next { s with pc := s.valueAt .stack s.pullSlot .w16 + 1, s := s.spUp 2 }) ∧
    (s.CanRead .stack s.pullSlot 3 → Encodes s [0x6B] .rtl ∧
      exec .rtl s = .next { s with
        pc := s.valueAt .stack s.pullSlot .w16 + 1
        pbr := s.seen .stack (s.pullSlot 2)
        s := s.spUp 3 })

/-- A return right after a call comes back to the instruction after the call, in its bank, with S restored, at every place
of a stack in RAM (R68, R256, R257, R258, R284, R285); that JSL, RTL and JSR (abs,X) stay in page 1 in emulation mode is log
14 (DEDUCED, U6). The spec marks as its own: R68 D5, D6; R257 from general knowledge; R284 D18; R285 D18. -/
def Obligations.ReturnsUndoCalls : Prop :=
  ∀ (s t : State) (a : Word) (l : Addr),
    (s.CanWrite s.slot 2 → exec (.jsrAbs a) s = .next t ∨ exec (.jsrIndX a) s = .next t →
      exec .rts t = .next { s with mem := t.mem, pc := s.pcn 3 }) ∧
    (s.CanWrite s.slot 3 → exec (.jsl l) s = .next t → exec .rtl t = .next { s with mem := t.mem, pc := s.pcn 4 })

/-! ### Stack instructions -/

/-- The pushes of registers: A, X, Y at their width, DBR, PBR and P one byte, D two; no flag changes (R68, R270, R271, R272,
R273, R274, R275, R276); that PHD stays in page 1 in emulation mode is log 14 (DEDUCED, U6). The spec marks as its own: R68
D5, D6. -/
def Obligations.RegisterPushes : Prop :=
  ∀ s : State,
    PushesBytes s [0x48] .pha (highFirst s.wA (s.c.setWidth s.wA.bits)) ∧
    PushesBytes s [0xDA] .phx (highFirst s.wI (s.x.setWidth s.wI.bits)) ∧
    PushesBytes s [0x5A] .phy (highFirst s.wI (s.y.setWidth s.wI.bits)) ∧
    PushesBytes s [0x8B] .phb [s.dbr] ∧ PushesBytes s [0x0B] .phd [hi s.d, lo s.d] ∧
    PushesBytes s [0x4B] .phk [s.pbr] ∧ PushesBytes s [0x08] .php [s.p]

/-- PEA pushes its operand, PEI the word its direct-page operand names, never page-wrapped, PER the next instruction's
address plus its offset; always two bytes, and no flag changes (R68, R348, R349, R350); that the three stay in page 1 in
emulation mode is log 14 (DEDUCED, U6). The spec marks as its own: R68 D5, D6; R349 D4; R350 D7. -/
def Obligations.EffectiveAddressPushes : Prop :=
  ∀ (s : State) (v : Word) (o : Byte),
    PushesBytes s [0xF4, lo v, hi v] (.pea v) [hi v, lo v] ∧
    (s.CanRead .operand (fun k => addr 0 (s.d + BitVec.ofNat 16 o.toNat + BitVec.ofNat 16 k)) 2 →
      let w := s.valueAt .operand (fun k => addr 0 (s.d + BitVec.ofNat 16 o.toNat + BitVec.ofNat 16 k)) .w16
      PushesBytes s [0xD4, o] (.pei o) [hi w, lo w]) ∧
    PushesBytes s [0x62, lo v, hi v] (.per v) [hi (s.pcn 3 + v), lo (s.pcn 3 + v)]

/-- The pulls: the value comes from the stack at the register's width, N and Z describe it, S goes up by its bytes (R68,
R277, R278, R279, R280, R281); that PLD stays in page 1 in emulation mode is log 14 (DEDUCED, U6). The spec marks as its
own: R68 D5, D6. -/
def Obligations.RegisterPulls : Prop :=
  ∀ s : State,
    (s.CanRead .stack s.pullSlot s.wA.bytes → Encodes s [0x68] .pla ∧
      ∃ c p, AccIs s.c c s.wA (s.valueAt .stack s.pullSlot s.wA) ∧ StatusIs s.p p (nz (s.valueAt .stack s.pullSlot s.wA)) ∧
        exec .pla s = .next { s with pc := s.pcn 1, s := s.spUp s.wA.bytes, c := c, p := p }) ∧
    (s.CanRead .stack s.pullSlot s.wI.bytes → Encodes s [0xFA] .plx ∧
      ∃ x p, IndexIs x s.wI (s.valueAt .stack s.pullSlot s.wI) ∧ StatusIs s.p p (nz (s.valueAt .stack s.pullSlot s.wI)) ∧
        exec .plx s = .next { s with pc := s.pcn 1, s := s.spUp s.wI.bytes, x := x, p := p }) ∧
    (s.CanRead .stack s.pullSlot s.wI.bytes → Encodes s [0x7A] .ply ∧
      ∃ y p, IndexIs y s.wI (s.valueAt .stack s.pullSlot s.wI) ∧ StatusIs s.p p (nz (s.valueAt .stack s.pullSlot s.wI)) ∧
        exec .ply s = .next { s with pc := s.pcn 1, s := s.spUp s.wI.bytes, y := y, p := p }) ∧
    (s.CanRead .stack s.pullSlot 1 → Encodes s [0xAB] .plb ∧
      ∃ p, StatusIs s.p p (nz (s.seen .stack (s.pullSlot 0))) ∧
        exec .plb s = .next { s with pc := s.pcn 1, s := s.spUp 1, dbr := s.seen .stack (s.pullSlot 0), p := p }) ∧
    (s.CanRead .stack s.pullSlot 2 → Encodes s [0x2B] .pld ∧
      ∃ p, StatusIs s.p p (nz (s.valueAt .stack s.pullSlot .w16)) ∧
        exec .pld s = .next { s with pc := s.pcn 1, s := s.spUp 2, d := s.valueAt .stack s.pullSlot .w16, p := p })

/-- PLP, REP and SEP write the whole status byte as R39 says: the pulled byte, P with the operand's bits cleared, P with
them set (R68, R39, R282, R320, R321). The spec marks as its own: R68 D5, D6; R39 D17. -/
def Obligations.StatusByteInstructions : Prop :=
  ∀ (s : State) (imm : Byte),
    (s.CanRead .stack s.pullSlot 1 → Encodes s [0x28] .plp ∧
      ∃ p x y, StatusWritten s (s.seen .stack (s.pullSlot 0)) p x y ∧
        exec .plp s = .next { s with pc := s.pcn 1, s := s.spUp 1, p := p, x := x, y := y }) ∧
    (Encodes s [0xC2, imm] (.rep imm) ∧
      ∃ p x y, StatusWritten s (s.p &&& ~~~imm) p x y ∧
        exec (.rep imm) s = .next { s with pc := s.pcn 2, p := p, x := x, y := y }) ∧
    (Encodes s [0xE2, imm] (.sep imm) ∧
      ∃ p x y, StatusWritten s (s.p ||| imm) p x y ∧
        exec (.sep imm) s = .next { s with pc := s.pcn 2, p := p, x := x, y := y })

/-- RTI pulls P, then PC, then in native mode PBR; nothing is added to PC (R68, R39, R283, R413). The spec marks as its own:
R68 D5, D6; R39 D17; R283 D18. -/
def Obligations.RtiPullsTheFrame : Prop :=
  ∀ s : State, s.CanRead .stack s.pullSlot (if s.e then 3 else 4) →
    Encodes s [0x40] .rti ∧
    ∃ p x y, StatusWritten s (s.seen .stack (s.pullSlot 0)) p x y ∧
      exec .rti s = .next { s with
        p := p
        x := x
        y := y
        pc := word (s.seen .stack (s.pullSlot 2)) (s.seen .stack (s.pullSlot 1))
        pbr := if s.e then s.pbr else s.seen .stack (s.pullSlot 3)
        s := s.spUp (if s.e then 3 else 4) }

/-! ### Block moves -/

/-- One execution of a block move: DBR takes the destination bank, one byte is copied to RAM, X and Y step at the index
width, C counts down at 16 bits, and PC moves on when C was 0 (R300, R301). The spec marks as its own: R300 D19; R301 D19.
-/
def Obligations.BlockMoveCopiesOneByte : Prop :=
  ∀ (s : State) (dst src : Byte), s.Readable .operand (addr src s.x) → s.Writable (addr dst s.y) →
    ∃ m, StoredAt s.mem m (fun _ => addr dst s.y) .w8 (s.seen .operand (addr src s.x)) ∧
      (Encodes s [0x54, dst, src] (.mvn dst src) ∧
        ∃ x y, IndexIs x s.wI (s.x.setWidth s.wI.bits + 1) ∧ IndexIs y s.wI (s.y.setWidth s.wI.bits + 1) ∧
          exec (.mvn dst src) s = .next { s with
            dbr := dst, mem := m, x := x, y := y, c := s.c - 1, pc := if s.c = 0 then s.pcn 3 else s.pc }) ∧
      (Encodes s [0x44, dst, src] (.mvp dst src) ∧
        ∃ x y, IndexIs x s.wI (s.x.setWidth s.wI.bits - 1) ∧ IndexIs y s.wI (s.y.setWidth s.wI.bits - 1) ∧
          exec (.mvp dst src) s = .next { s with
            dbr := dst, mem := m, x := x, y := y, c := s.c - 1, pc := if s.c = 0 then s.pcn 3 else s.pc })

/-- The whole of MVN with 16-bit index registers: executed C + 1 times it copies C + 1 bytes of RAM or ROM from `src:X` up
to RAM from `dst:Y` up, offsets wrapping inside the banks, when no byte read is one written; C ends at $FFFF, DBR at the
destination bank, PC at the next instruction, and no other byte changes (R300). The spec marks as its own: R300 D19. -/
def Obligations.MvnCopiesTheWholeBlock : Prop :=
  ∀ (s : State) (dst src : Byte), s.flagX = false →
    (∀ k, k ≤ s.c.toNat → s.RamOrRom (addr src (s.x + BitVec.ofNat 16 k))) →
    (∀ k, k ≤ s.c.toNat → s.Writable (addr dst (s.y + BitVec.ofNat 16 k))) →
    (∀ j k, j ≤ s.c.toNat → k ≤ s.c.toNat → addr src (s.x + BitVec.ofNat 16 j) ≠ addr dst (s.y + BitVec.ofNat 16 k)) →
    ∃ m, execTimes (.mvn dst src) (s.c.toNat + 1) s = .next { s with
        dbr := dst, mem := m, c := 0xFFFF, pc := s.pcn 3
        x := s.x + BitVec.ofNat 16 (s.c.toNat + 1), y := s.y + BitVec.ofNat 16 (s.c.toNat + 1) } ∧
      (∀ k, k ≤ s.c.toNat →
        m.get (addr dst (s.y + BitVec.ofNat 16 k)).toNat = s.byteAt (addr src (s.x + BitVec.ofNat 16 k))) ∧
      ∀ a : Addr, (∀ k, k ≤ s.c.toNat → a ≠ addr dst (s.y + BitVec.ofNat 16 k)) → m.get a.toNat = s.byteAt a

/-- The whole of MVP with 16-bit index registers: as MVN, the offsets going down (R300, R301). The spec marks as its own:
R300 D19; R301 D19. -/
def Obligations.MvpCopiesTheWholeBlock : Prop :=
  ∀ (s : State) (dst src : Byte), s.flagX = false →
    (∀ k, k ≤ s.c.toNat → s.RamOrRom (addr src (s.x - BitVec.ofNat 16 k))) →
    (∀ k, k ≤ s.c.toNat → s.Writable (addr dst (s.y - BitVec.ofNat 16 k))) →
    (∀ j k, j ≤ s.c.toNat → k ≤ s.c.toNat → addr src (s.x - BitVec.ofNat 16 j) ≠ addr dst (s.y - BitVec.ofNat 16 k)) →
    ∃ m, execTimes (.mvp dst src) (s.c.toNat + 1) s = .next { s with
        dbr := dst, mem := m, c := 0xFFFF, pc := s.pcn 3
        x := s.x - BitVec.ofNat 16 (s.c.toNat + 1), y := s.y - BitVec.ofNat 16 (s.c.toNat + 1) } ∧
      (∀ k, k ≤ s.c.toNat →
        m.get (addr dst (s.y - BitVec.ofNat 16 k)).toNat = s.byteAt (addr src (s.x - BitVec.ofNat 16 k))) ∧
      ∀ a : Addr, (∀ k, k ≤ s.c.toNat → a ≠ addr dst (s.y - BitVec.ofNat 16 k)) → m.get a.toNat = s.byteAt a

/-! ### Bit and flag instructions -/

/-- BIT writes Z from the conjunction with the accumulator, and in its memory forms N and V from the top two bits of the
operand; the immediate form writes Z alone (R310). The spec marks as its own: R310 from general knowledge. -/
def Obligations.BitTests : Prop :=
  ∀ (s : State) (o : Source) (op : Byte) (i : Instr) (m : BitVec s.wA.bits),
    bitForm o = some (op, i) → OperandIs s s.wA o m →
    Encodes s (op :: o.encoded) i ∧
    ∃ p, StatusIs s.p p ((1, decide (s.c.setWidth s.wA.bits &&& m = 0)) ::
        match o with
        | .imm _ => []
        | .mem _ => [(7, m.getLsbD (s.wA.bits - 1)), (6, m.getLsbD (s.wA.bits - 2))]) ∧
      exec i s = .next { s with pc := s.pcn (1 + o.encoded.length), p := p }

/-- TSB and TRB write Z from the operand as read, then store it with the accumulator's bits set, or cleared, in it, in
memory or to a device that takes the access, high byte first (R66, R70, R311, R312; the record of device writes is log 24).
The spec marks as its own: R66 D23; R70 D31. -/
def Obligations.TestAndSetOrResetBits : Prop :=
  ∀ s : State,
    let a := s.c.setWidth s.wA.bits
    ChangesMemory tsbForm s (fun v => v ||| a) (fun v => [(1, decide (a &&& v = 0))]) ∧
    ChangesMemory trbForm s (fun v => v &&& ~~~a) (fun v => [(1, decide (a &&& v = 0))])

/-- Each single-flag instruction is one byte and writes the one bit its rule names; no other state changes but PC (R313,
R314, R315, R316, R318, R319, and the operation of R317). -/
def Obligations.SingleFlagInstructions : Prop :=
  ∀ (s : State) (r : Byte × Instr × Nat × Bool),
    r ∈ ([(0x18, .clc, 0, false), (0x38, .sec, 0, true), (0xD8, .cld, 3, false), (0xF8, .sed, 3, true),
      (0x58, .cli, 2, false), (0x78, .sei, 2, true), (0xB8, .clv, 6, false)] : List (Byte × Instr × Nat × Bool)) →
    Encodes s [r.1] r.2.1 ∧
    ∃ p, StatusIs s.p p [r.2.2] ∧ exec r.2.1 s = .next { s with pc := s.pcn 1, p := p }

/-! ### System instructions and transfers -/

/-- WAI and STP change RUN and PC alone; NOP and WDM change PC alone (R342, R343, R346, R347; NOP and WDM: log 13). The spec
marks as its own: R342 D20; R343 D32; R346 D26; R347 D24. -/
def Obligations.WaitStopAndNoOperation : Prop :=
  ∀ (s : State) (sig : Byte),
    (Encodes s [0xCB] .wai ∧ exec .wai s = .next { s with pc := s.pcn 1, run := .waiting }) ∧
    (Encodes s [0xDB] .stp ∧ exec .stp s = .next { s with pc := s.pcn 1, run := .stopped }) ∧
    (Encodes s [0xEA] .nop ∧ exec .nop s = .next { s with pc := s.pcn 1 }) ∧
    (Encodes s [0x42, sig] (.wdm sig) ∧ exec (.wdm sig) s = .next { s with pc := s.pcn 2 })

/-- XCE exchanges C and E; when E is then 1 it sets M and X, clears the high bytes of X and Y, and forces SH to 1; nothing
else changes (R344). The spec marks as its own: R344 from general knowledge. -/
def Obligations.XceExchangesModes : Prop :=
  ∀ s : State, Encodes s [0xFB] .xce ∧
    ∃ p, StatusIs s.p p ((0, s.e) :: if s.flagC then [(5, true), (4, true)] else []) ∧
      exec .xce s = .next { s with
        pc := s.pcn 1
        e := s.flagC
        p := p
        x := if s.flagC then word 0 (lo s.x) else s.x
        y := if s.flagC then word 0 (lo s.y) else s.y
        s := if s.flagC then word 0x01 (lo s.s) else s.s }

/-- XBA exchanges the two bytes of the accumulator; N and Z describe the new low byte (R345). The spec marks as its own:
R345 D15. -/
def Obligations.XbaExchangesBytes : Prop :=
  ∀ s : State, Encodes s [0xEB] .xba ∧
    ∃ p, StatusIs s.p p (nz (hi s.c)) ∧ exec .xba s = .next { s with pc := s.pcn 1, c := word (lo s.c) (hi s.c), p := p }

/-- The transfers into X, Y and A are at the width of their destination, with N and Z from the value written (R359, R360,
R361, R362, R363, R364, R370, R371). The spec marks as its own: R359 D14. -/
def Obligations.TransfersToIndexAndAccumulator : Prop :=
  ∀ s : State,
    (∀ r ∈ ([(0xAA, .tax, s.c), (0xBA, .tsx, s.s), (0xBB, .tyx, s.y)] : List (Byte × Instr × Word)),
      let v := r.2.2.setWidth s.wI.bits
      Encodes s [r.1] r.2.1 ∧ ∃ x p, IndexIs x s.wI v ∧ StatusIs s.p p (nz v) ∧
        exec r.2.1 s = .next { s with pc := s.pcn 1, x := x, p := p }) ∧
    (∀ r ∈ ([(0xA8, .tay, s.c), (0x9B, .txy, s.x)] : List (Byte × Instr × Word)),
      let v := r.2.2.setWidth s.wI.bits
      Encodes s [r.1] r.2.1 ∧ ∃ y p, IndexIs y s.wI v ∧ StatusIs s.p p (nz v) ∧
        exec r.2.1 s = .next { s with pc := s.pcn 1, y := y, p := p }) ∧
    (∀ r ∈ ([(0x8A, .txa, s.x), (0x98, .tya, s.y)] : List (Byte × Instr × Word)),
      let v := r.2.2.setWidth s.wA.bits
      Encodes s [r.1] r.2.1 ∧ ∃ c p, AccIs s.c c s.wA v ∧ StatusIs s.p p (nz v) ∧
        exec r.2.1 s = .next { s with pc := s.pcn 1, c := c, p := p })

/-- TDC, TSC and TCD move 16 bits whatever P.M is, with N and Z from 16 bits; TXS and TCS write S without flags, in
emulation mode SL alone (R359, R365, R366, R367, R368, R369; that TCD sets N and Z is the parameter TCD_SETS_NZ, log 9). The
spec marks as its own: R359 D14; R366 D16. -/
def Obligations.SixteenBitTransfers : Prop :=
  ∀ s : State,
    (Encodes s [0x7B] .tdc ∧
      ∃ p, StatusIs s.p p (nz s.d) ∧ exec .tdc s = .next { s with pc := s.pcn 1, c := s.d, p := p }) ∧
    (Encodes s [0x3B] .tsc ∧
      ∃ p, StatusIs s.p p (nz s.s) ∧ exec .tsc s = .next { s with pc := s.pcn 1, c := s.s, p := p }) ∧
    (Encodes s [0x5B] .tcd ∧
      ∃ p, StatusIs s.p p (nz s.c) ∧ exec .tcd s = .next { s with pc := s.pcn 1, d := s.c, p := p }) ∧
    (Encodes s [0x9A] .txs ∧
      exec .txs s = .next { s with pc := s.pcn 1, s := if s.e then word (hi s.s) (lo s.x) else s.x }) ∧
    (Encodes s [0x1B] .tcs ∧
      exec .tcs s = .next { s with pc := s.pcn 1, s := if s.e then word (hi s.s) (lo s.c) else s.c })
end

