-- ==== Sys2Proof/Laws/Bits.lean ====
section
/-!
SUPPORT. The lemmas of Machine/Bits.lean: taking a concatenation apart and putting it together, and reading a byte after a
single-bit write.
-/
namespace Sys2Proof

@[simp] theorem lo_word (h l : Byte) : lo (word h l) = l := by
  apply BitVec.eq_of_toNat_eq
  have := l.isLt
  rw [lo, word, BitVec.toNat_setWidth, BitVec.toNat_append, ← Nat.shiftLeft_add_eq_or_of_lt (by omega), Nat.shiftLeft_eq]
  omega

@[simp] theorem hi_word (h l : Byte) : hi (word h l) = h := by
  unfold hi word; rw [BitVec.extractLsb'_append_eq_left]

@[simp] theorem word_hi_lo (v : Word) : word (hi v) (lo v) = v := by
  apply BitVec.eq_of_toNat_eq
  simp only [word, hi, lo, BitVec.toNat_append, BitVec.extractLsb'_toNat, BitVec.toNat_setWidth]
  rw [← Nat.shiftLeft_add_eq_or_of_lt (by omega), Nat.shiftLeft_eq, Nat.shiftRight_eq_div_pow]
  have := v.isLt
  omega

theorem word_inj {h l h' l' : Byte} (e : word h l = word h' l') : h = h' ∧ l = l' :=
  ⟨by simpa using congrArg hi e, by simpa using congrArg lo e⟩

theorem word_toNat (h l : Byte) : (word h l).toNat = h.toNat * 256 + l.toNat := by
  have := l.isLt
  rw [word, BitVec.toNat_append, ← Nat.shiftLeft_add_eq_or_of_lt (by omega), Nat.shiftLeft_eq]

theorem lo_toNat (v : Word) : (lo v).toNat = v.toNat % 256 := by simp [lo]

theorem hi_toNat (v : Word) : (hi v).toNat = v.toNat / 256 := by
  have := v.isLt
  simp only [hi, BitVec.extractLsb'_toNat, Nat.shiftRight_eq_div_pow]
  omega

@[simp] theorem offsetOf_addr (b : Byte) (o : Word) : offsetOf (addr b o) = o := by
  apply BitVec.eq_of_toNat_eq
  have := o.isLt
  rw [offsetOf, addr, BitVec.toNat_setWidth, BitVec.toNat_append, ← Nat.shiftLeft_add_eq_or_of_lt (by omega),
    Nat.shiftLeft_eq]
  omega

@[simp] theorem bankOf_addr (b : Byte) (o : Word) : bankOf (addr b o) = b := by
  unfold bankOf addr; rw [BitVec.extractLsb'_append_eq_left]

@[simp] theorem addr_bankOf_offsetOf (a : Addr) : addr (bankOf a) (offsetOf a) = a := by
  apply BitVec.eq_of_toNat_eq
  simp only [addr, bankOf, offsetOf, BitVec.toNat_append, BitVec.extractLsb'_toNat, BitVec.toNat_setWidth]
  rw [← Nat.shiftLeft_add_eq_or_of_lt (by omega), Nat.shiftLeft_eq, Nat.shiftRight_eq_div_pow]
  have := a.isLt
  omega

theorem addr_inj {b b' : Byte} {o o' : Word} (e : addr b o = addr b' o') : b = b' ∧ o = o' :=
  ⟨by simpa using congrArg bankOf e, by simpa using congrArg offsetOf e⟩

theorem addr_toNat (b : Byte) (o : Word) : (addr b o).toNat = b.toNat * 65536 + o.toNat := by
  have := o.isLt
  rw [addr, BitVec.toNat_append, ← Nat.shiftLeft_add_eq_or_of_lt (by omega), Nat.shiftLeft_eq]

/-- Bit `j` after bit `i` was written. -/
theorem getLsbD_setBit (p : Byte) (i j : Nat) (b : Bool) (h : i < 8) :
    (setBit p i b).getLsbD j = if i = j then b else p.getLsbD j := by
  have hp : ∀ k, (BitVec.twoPow 8 i).getLsbD k = decide (i = k) := by
    intro k
    rw [BitVec.getLsbD_twoPow]
    by_cases hk : i = k <;> simp [hk]
    omega
  have hlt : p.getLsbD j = true → j < 8 := BitVec.lt_of_getLsbD
  unfold setBit
  cases b
  · rw [if_neg (by simp), BitVec.getLsbD_and, BitVec.getLsbD_not, hp]
    by_cases hj : i = j
    · simp [hj]
    · cases e : p.getLsbD j <;> simp_all
  · rw [if_pos rfl, BitVec.getLsbD_or, hp]
    by_cases hj : i = j <;> simp [hj]

/-- Bit `j` after bit `i` was written, as an element of the byte. -/
theorem getElem_setBit (p : Byte) (i j : Nat) (b : Bool) (hi : i < 8) (hj : j < 8) :
    (setBit p i b)[j] = if i = j then b else p[j] := by
  simp only [← BitVec.getLsbD_eq_getElem]
  exact getLsbD_setBit p i j b hi

/-- Two bytes with the same eight bits are equal. -/
theorem byte_ext {p q : Byte} (h : ∀ i, i < 8 → p.getLsbD i = q.getLsbD i) : p = q :=
  BitVec.eq_of_getLsbD_eq fun i hi => h i hi

end Sys2Proof
end

