-- ==== Sys2Proof/Laws/Decode.lean ====
section
/-!
SUPPORT. One lemma per operand format of Decode.lean: what a decoder reads from an opcode of the format and its operand bytes.
-/
namespace Sys2Proof

theorem decode_implied {op : Byte} {i : Instr} (h : shapeOf op = some (.implied i)) (m x : Bool) (rest : List Byte) :
    decode m x ([op] ++ rest) = .ok (i, rest) := by
  simp [decode, h, Shape.read]

theorem decode_one {op : Byte} {f : Byte → Instr} (h : shapeOf op = some (.one f)) (m x : Bool) (b : Byte)
    (rest : List Byte) : decode m x ([op, b] ++ rest) = .ok (f b, rest) := by
  simp [decode, h, Shape.read]

theorem decode_two {op : Byte} {f : Word → Instr} (h : shapeOf op = some (.two f)) (m x : Bool) (v : Word)
    (rest : List Byte) : decode m x ((op :: bytes2 v) ++ rest) = .ok (f v, rest) := by
  simp [decode, h, Shape.read, bytes2]

theorem decode_three {op : Byte} {f : Addr → Instr} (h : shapeOf op = some (.three f)) (m x : Bool) (a : Addr)
    (rest : List Byte) : decode m x ((op :: bytes3 a) ++ rest) = .ok (f a, rest) := by
  simp [decode, h, Shape.read, bytes3]

theorem decode_banks {op : Byte} {f : Byte → Byte → Instr} (h : shapeOf op = some (.banks f)) (m x : Bool) (d s : Byte)
    (rest : List Byte) : decode m x ([op, d, s] ++ rest) = .ok (f d s, rest) := by
  simp [decode, h, Shape.read]

theorem readImm_immBytes {flag : Bool} {f : Imm → Instr} {v : Imm} (h : (v.width == widthOf flag) = true)
    (rest : List Byte) : readImm flag f (immBytes v ++ rest) = .ok (f v, rest) := by
  cases flag <;> cases v <;> simp [Imm.width, widthOf, readImm, immBytes, bytes2] at h ⊢

theorem decode_immA {op : Byte} {f : Imm → Instr} (h : shapeOf op = some (.immA f)) (m x : Bool) {v : Imm}
    (hv : (v.width == widthOf m) = true) (rest : List Byte) :
    decode m x ((op :: immBytes v) ++ rest) = .ok (f v, rest) := by
  simp [decode, h, Shape.read, readImm_immBytes hv]

theorem decode_immI {op : Byte} {f : Imm → Instr} (h : shapeOf op = some (.immI f)) (m x : Bool) {v : Imm}
    (hv : (v.width == widthOf x) = true) (rest : List Byte) :
    decode m x ((op :: immBytes v) ++ rest) = .ok (f v, rest) := by
  simp [decode, h, Shape.read, readImm_immBytes hv]

end Sys2Proof
end

