-- ==== Sys2Proof/Laws/Memory.lean ====
section
/-!
SUPPORT. The laws of Machine/Memory.lean: a write changes the byte it names and no other, and every operation keeps the
canonical form. The two read laws hold of every list, canonical or not.
-/
namespace Sys2Proof.Machine

@[simp] theorem Memory.get_nil (a : Nat) : Memory.get [] a = unlistedByte := rfl

/-- Of the addresses that pass the test the bytes stay; the others read as unlisted. -/
theorem Memory.get_filter (keep : Nat → Bool) (m : Memory) (b : Nat) :
    Memory.get (m.filter fun c => keep c.1) b = if keep b then Memory.get m b else unlistedByte := by
  induction m with
  | nil => simp
  | cons c m ih =>
    obtain ⟨k, v⟩ := c
    rw [List.filter_cons]
    cases hk : keep k <;> by_cases hb : k = b <;> simp [Memory.get, ih, hb] <;> subst hb <;> simp [hk]

theorem Memory.get_erase (m : Memory) (a b : Nat) :
    Memory.get (Memory.erase m a) b = if a = b then unlistedByte else Memory.get m b := by
  rw [Memory.erase, Memory.get_filter (fun k => k != a)]
  by_cases h : a = b
  · simp [h]
  · simp [h, Ne.symm h]

theorem Memory.get_place (m : Memory) (a : Nat) (v : Byte) (b : Nat) (h : ∀ c ∈ m, c.1 ≠ a) :
    Memory.get (Memory.place m a v) b = if a = b then v else Memory.get m b := by
  induction m with
  | nil => simp [Memory.place, Memory.get]
  | cons c m ih =>
    obtain ⟨k, w⟩ := c
    have hk : k ≠ a := h (k, w) (by simp)
    have ih := ih fun c hc => h c (by simp [hc])
    unfold Memory.place
    split
    · simp [Memory.get]
    · simp only [Memory.get, ih]
      by_cases hb : k = b
      · subst hb; simp [Ne.symm hk]
      · simp [hb]

/-- A write changes the byte at its address and no other (R10). -/
theorem Memory.get_set (m : Memory) (a : Nat) (v : Byte) (b : Nat) :
    Memory.get (Memory.set m a v) b = if a = b then v else Memory.get m b := by
  unfold Memory.set
  split
  · next h => rw [Memory.get_erase, h]
  · rw [Memory.get_place _ _ _ _ (by simp [Memory.erase]), Memory.get_erase]
    by_cases hb : a = b <;> simp [hb]

@[simp] theorem Memory.get_set_same (m : Memory) (a : Nat) (v : Byte) : Memory.get (Memory.set m a v) a = v := by
  simp [Memory.get_set]

theorem Memory.get_set_other (m : Memory) {a b : Nat} (v : Byte) (h : b ≠ a) :
    Memory.get (Memory.set m a v) b = Memory.get m b := by
  simp [Memory.get_set, Ne.symm h]

theorem Memory.wfFrom_mono {m : Memory} {l l' : Nat} (h : Memory.wfFrom l m = true) (hl : l' ≤ l) :
    Memory.wfFrom l' m = true := by
  cases m with
  | nil => rfl
  | cons c m =>
    simp only [Memory.wfFrom, Bool.and_eq_true, decide_eq_true_eq] at h ⊢
    exact ⟨⟨⟨Nat.le_trans hl h.1.1.1, h.1.1.2⟩, h.1.2⟩, h.2⟩

theorem Memory.wfFrom_filter {m : Memory} {l : Nat} (keep : Host.Cell → Bool) (h : Memory.wfFrom l m = true) :
    Memory.wfFrom l (m.filter keep) = true := by
  induction m generalizing l with
  | nil => rfl
  | cons c m ih =>
    simp only [Memory.wfFrom, Bool.and_eq_true, decide_eq_true_eq] at h
    rw [List.filter_cons]
    split
    · simp only [Memory.wfFrom, Bool.and_eq_true, decide_eq_true_eq]
      exact ⟨h.1, ih h.2⟩
    · exact Memory.wfFrom_mono (ih h.2) (by omega)

theorem Memory.wfFrom_erase {m : Memory} {l : Nat} (a : Nat) (h : Memory.wfFrom l m = true) :
    Memory.wfFrom l (Memory.erase m a) = true := Memory.wfFrom_filter _ h

theorem Memory.wfFrom_place {m : Memory} {l a : Nat} {v : Byte} (h : Memory.wfFrom l m = true) (hl : l ≤ a)
    (ha : a < 2 ^ 24) (hv : v ≠ unlistedByte) (hm : ∀ c ∈ m, c.1 ≠ a) : Memory.wfFrom l (Memory.place m a v) = true := by
  induction m generalizing l with
  | nil => simp [Memory.place, Memory.wfFrom, hl, hv]; omega
  | cons c m ih =>
    obtain ⟨k, w⟩ := c
    have hk : k ≠ a := hm (k, w) (by simp)
    simp only [Memory.wfFrom, Bool.and_eq_true, decide_eq_true_eq] at h
    unfold Memory.place
    split
    · simp only [Memory.wfFrom, Bool.and_eq_true, decide_eq_true_eq]
      exact ⟨⟨⟨hl, ha⟩, by simpa using hv⟩, ⟨⟨by omega, h.1.1.2⟩, h.1.2⟩, h.2⟩
    · simp only [Memory.wfFrom, Bool.and_eq_true, decide_eq_true_eq]
      exact ⟨h.1, ih h.2 (by omega) fun c hc => hm c (by simp [hc])⟩

/-- A write inside the address space keeps the canonical form. -/
theorem Memory.wf_set {m : Memory} {a : Nat} (v : Byte) (h : Memory.wf m = true) (ha : a < 2 ^ 24) :
    Memory.wf (Memory.set m a v) = true := by
  unfold Memory.set
  split
  · exact Memory.wfFrom_erase a h
  · next hv => exact Memory.wfFrom_place (Memory.wfFrom_erase a h) (Nat.zero_le a) ha hv (by simp [Memory.erase])

theorem Memory.wf_nil : Memory.wf [] = true := rfl

end Sys2Proof.Machine
end

