-- ==== Sys2Proof/Laws/State.lean ====
section
/-!
SUPPORT. What each register update does to each field of State, one lemma per field per update, and to each status bit, so
that no proof unfolds a record update.
-/
namespace Sys2Proof.Machine

/-! ### `setN` -/

@[simp] theorem State.setN_c (s : State) (b : Bool) : (s.setN b).c = s.c := rfl
@[simp] theorem State.setN_x (s : State) (b : Bool) : (s.setN b).x = s.x := rfl
@[simp] theorem State.setN_y (s : State) (b : Bool) : (s.setN b).y = s.y := rfl
@[simp] theorem State.setN_s (s : State) (b : Bool) : (s.setN b).s = s.s := rfl
@[simp] theorem State.setN_d (s : State) (b : Bool) : (s.setN b).d = s.d := rfl
@[simp] theorem State.setN_dbr (s : State) (b : Bool) : (s.setN b).dbr = s.dbr := rfl
@[simp] theorem State.setN_pbr (s : State) (b : Bool) : (s.setN b).pbr = s.pbr := rfl
@[simp] theorem State.setN_pc (s : State) (b : Bool) : (s.setN b).pc = s.pc := rfl
@[simp] theorem State.setN_p (s : State) (b : Bool) : (s.setN b).p = setBit s.p 7 b := rfl
@[simp] theorem State.setN_e (s : State) (b : Bool) : (s.setN b).e = s.e := rfl
@[simp] theorem State.setN_run (s : State) (b : Bool) : (s.setN b).run = s.run := rfl
@[simp] theorem State.setN_nmiPending (s : State) (b : Bool) : (s.setN b).nmiPending = s.nmiPending := rfl
@[simp] theorem State.setN_mem (s : State) (b : Bool) : (s.setN b).mem = s.mem := rfl
@[simp] theorem State.setN_memMap (s : State) (b : Bool) : (s.setN b).memMap = s.memMap := rfl
@[simp] theorem State.setN_vectors (s : State) (b : Bool) : (s.setN b).vectors = s.vectors := rfl
@[simp] theorem State.setN_inputs (s : State) (b : Bool) : (s.setN b).inputs = s.inputs := rfl
@[simp] theorem State.setN_deviceWrites (s : State) (b : Bool) : (s.setN b).deviceWrites = s.deviceWrites := rfl
@[simp] theorem State.setN_draw (s : State) (b : Bool) : (s.setN b).draw = s.draw := rfl

@[simp] theorem State.setN_flagN (s : State) (b : Bool) : (s.setN b).flagN = b := by
  simp [State.flagN, getElem_setBit]
@[simp] theorem State.setN_flagV (s : State) (b : Bool) : (s.setN b).flagV = s.flagV := by
  simp [State.flagV, getElem_setBit]
@[simp] theorem State.setN_flagM (s : State) (b : Bool) : (s.setN b).flagM = s.flagM := by
  simp [State.flagM, getElem_setBit]
@[simp] theorem State.setN_flagX (s : State) (b : Bool) : (s.setN b).flagX = s.flagX := by
  simp [State.flagX, getElem_setBit]
@[simp] theorem State.setN_flagD (s : State) (b : Bool) : (s.setN b).flagD = s.flagD := by
  simp [State.flagD, getElem_setBit]
@[simp] theorem State.setN_flagI (s : State) (b : Bool) : (s.setN b).flagI = s.flagI := by
  simp [State.flagI, getElem_setBit]
@[simp] theorem State.setN_flagZ (s : State) (b : Bool) : (s.setN b).flagZ = s.flagZ := by
  simp [State.flagZ, getElem_setBit]
@[simp] theorem State.setN_flagC (s : State) (b : Bool) : (s.setN b).flagC = s.flagC := by
  simp [State.flagC, getElem_setBit]
@[simp] theorem State.setN_wA (s : State) (b : Bool) : (s.setN b).wA = s.wA := by simp [State.wA]
@[simp] theorem State.setN_wI (s : State) (b : Bool) : (s.setN b).wI = s.wI := by simp [State.wI]

/-! ### `setV` -/

@[simp] theorem State.setV_c (s : State) (b : Bool) : (s.setV b).c = s.c := rfl
@[simp] theorem State.setV_x (s : State) (b : Bool) : (s.setV b).x = s.x := rfl
@[simp] theorem State.setV_y (s : State) (b : Bool) : (s.setV b).y = s.y := rfl
@[simp] theorem State.setV_s (s : State) (b : Bool) : (s.setV b).s = s.s := rfl
@[simp] theorem State.setV_d (s : State) (b : Bool) : (s.setV b).d = s.d := rfl
@[simp] theorem State.setV_dbr (s : State) (b : Bool) : (s.setV b).dbr = s.dbr := rfl
@[simp] theorem State.setV_pbr (s : State) (b : Bool) : (s.setV b).pbr = s.pbr := rfl
@[simp] theorem State.setV_pc (s : State) (b : Bool) : (s.setV b).pc = s.pc := rfl
@[simp] theorem State.setV_p (s : State) (b : Bool) : (s.setV b).p = setBit s.p 6 b := rfl
@[simp] theorem State.setV_e (s : State) (b : Bool) : (s.setV b).e = s.e := rfl
@[simp] theorem State.setV_run (s : State) (b : Bool) : (s.setV b).run = s.run := rfl
@[simp] theorem State.setV_nmiPending (s : State) (b : Bool) : (s.setV b).nmiPending = s.nmiPending := rfl
@[simp] theorem State.setV_mem (s : State) (b : Bool) : (s.setV b).mem = s.mem := rfl
@[simp] theorem State.setV_memMap (s : State) (b : Bool) : (s.setV b).memMap = s.memMap := rfl
@[simp] theorem State.setV_vectors (s : State) (b : Bool) : (s.setV b).vectors = s.vectors := rfl
@[simp] theorem State.setV_inputs (s : State) (b : Bool) : (s.setV b).inputs = s.inputs := rfl
@[simp] theorem State.setV_deviceWrites (s : State) (b : Bool) : (s.setV b).deviceWrites = s.deviceWrites := rfl
@[simp] theorem State.setV_draw (s : State) (b : Bool) : (s.setV b).draw = s.draw := rfl

@[simp] theorem State.setV_flagN (s : State) (b : Bool) : (s.setV b).flagN = s.flagN := by
  simp [State.flagN, getElem_setBit]
@[simp] theorem State.setV_flagV (s : State) (b : Bool) : (s.setV b).flagV = b := by
  simp [State.flagV, getElem_setBit]
@[simp] theorem State.setV_flagM (s : State) (b : Bool) : (s.setV b).flagM = s.flagM := by
  simp [State.flagM, getElem_setBit]
@[simp] theorem State.setV_flagX (s : State) (b : Bool) : (s.setV b).flagX = s.flagX := by
  simp [State.flagX, getElem_setBit]
@[simp] theorem State.setV_flagD (s : State) (b : Bool) : (s.setV b).flagD = s.flagD := by
  simp [State.flagD, getElem_setBit]
@[simp] theorem State.setV_flagI (s : State) (b : Bool) : (s.setV b).flagI = s.flagI := by
  simp [State.flagI, getElem_setBit]
@[simp] theorem State.setV_flagZ (s : State) (b : Bool) : (s.setV b).flagZ = s.flagZ := by
  simp [State.flagZ, getElem_setBit]
@[simp] theorem State.setV_flagC (s : State) (b : Bool) : (s.setV b).flagC = s.flagC := by
  simp [State.flagC, getElem_setBit]
@[simp] theorem State.setV_wA (s : State) (b : Bool) : (s.setV b).wA = s.wA := by simp [State.wA]
@[simp] theorem State.setV_wI (s : State) (b : Bool) : (s.setV b).wI = s.wI := by simp [State.wI]

/-! ### `setD` -/

@[simp] theorem State.setD_c (s : State) (b : Bool) : (s.setD b).c = s.c := rfl
@[simp] theorem State.setD_x (s : State) (b : Bool) : (s.setD b).x = s.x := rfl
@[simp] theorem State.setD_y (s : State) (b : Bool) : (s.setD b).y = s.y := rfl
@[simp] theorem State.setD_s (s : State) (b : Bool) : (s.setD b).s = s.s := rfl
@[simp] theorem State.setD_d (s : State) (b : Bool) : (s.setD b).d = s.d := rfl
@[simp] theorem State.setD_dbr (s : State) (b : Bool) : (s.setD b).dbr = s.dbr := rfl
@[simp] theorem State.setD_pbr (s : State) (b : Bool) : (s.setD b).pbr = s.pbr := rfl
@[simp] theorem State.setD_pc (s : State) (b : Bool) : (s.setD b).pc = s.pc := rfl
@[simp] theorem State.setD_p (s : State) (b : Bool) : (s.setD b).p = setBit s.p 3 b := rfl
@[simp] theorem State.setD_e (s : State) (b : Bool) : (s.setD b).e = s.e := rfl
@[simp] theorem State.setD_run (s : State) (b : Bool) : (s.setD b).run = s.run := rfl
@[simp] theorem State.setD_nmiPending (s : State) (b : Bool) : (s.setD b).nmiPending = s.nmiPending := rfl
@[simp] theorem State.setD_mem (s : State) (b : Bool) : (s.setD b).mem = s.mem := rfl
@[simp] theorem State.setD_memMap (s : State) (b : Bool) : (s.setD b).memMap = s.memMap := rfl
@[simp] theorem State.setD_vectors (s : State) (b : Bool) : (s.setD b).vectors = s.vectors := rfl
@[simp] theorem State.setD_inputs (s : State) (b : Bool) : (s.setD b).inputs = s.inputs := rfl
@[simp] theorem State.setD_deviceWrites (s : State) (b : Bool) : (s.setD b).deviceWrites = s.deviceWrites := rfl
@[simp] theorem State.setD_draw (s : State) (b : Bool) : (s.setD b).draw = s.draw := rfl

@[simp] theorem State.setD_flagN (s : State) (b : Bool) : (s.setD b).flagN = s.flagN := by
  simp [State.flagN, getElem_setBit]
@[simp] theorem State.setD_flagV (s : State) (b : Bool) : (s.setD b).flagV = s.flagV := by
  simp [State.flagV, getElem_setBit]
@[simp] theorem State.setD_flagM (s : State) (b : Bool) : (s.setD b).flagM = s.flagM := by
  simp [State.flagM, getElem_setBit]
@[simp] theorem State.setD_flagX (s : State) (b : Bool) : (s.setD b).flagX = s.flagX := by
  simp [State.flagX, getElem_setBit]
@[simp] theorem State.setD_flagD (s : State) (b : Bool) : (s.setD b).flagD = b := by
  simp [State.flagD, getElem_setBit]
@[simp] theorem State.setD_flagI (s : State) (b : Bool) : (s.setD b).flagI = s.flagI := by
  simp [State.flagI, getElem_setBit]
@[simp] theorem State.setD_flagZ (s : State) (b : Bool) : (s.setD b).flagZ = s.flagZ := by
  simp [State.flagZ, getElem_setBit]
@[simp] theorem State.setD_flagC (s : State) (b : Bool) : (s.setD b).flagC = s.flagC := by
  simp [State.flagC, getElem_setBit]
@[simp] theorem State.setD_wA (s : State) (b : Bool) : (s.setD b).wA = s.wA := by simp [State.wA]
@[simp] theorem State.setD_wI (s : State) (b : Bool) : (s.setD b).wI = s.wI := by simp [State.wI]

/-! ### `setI` -/

@[simp] theorem State.setI_c (s : State) (b : Bool) : (s.setI b).c = s.c := rfl
@[simp] theorem State.setI_x (s : State) (b : Bool) : (s.setI b).x = s.x := rfl
@[simp] theorem State.setI_y (s : State) (b : Bool) : (s.setI b).y = s.y := rfl
@[simp] theorem State.setI_s (s : State) (b : Bool) : (s.setI b).s = s.s := rfl
@[simp] theorem State.setI_d (s : State) (b : Bool) : (s.setI b).d = s.d := rfl
@[simp] theorem State.setI_dbr (s : State) (b : Bool) : (s.setI b).dbr = s.dbr := rfl
@[simp] theorem State.setI_pbr (s : State) (b : Bool) : (s.setI b).pbr = s.pbr := rfl
@[simp] theorem State.setI_pc (s : State) (b : Bool) : (s.setI b).pc = s.pc := rfl
@[simp] theorem State.setI_p (s : State) (b : Bool) : (s.setI b).p = setBit s.p 2 b := rfl
@[simp] theorem State.setI_e (s : State) (b : Bool) : (s.setI b).e = s.e := rfl
@[simp] theorem State.setI_run (s : State) (b : Bool) : (s.setI b).run = s.run := rfl
@[simp] theorem State.setI_nmiPending (s : State) (b : Bool) : (s.setI b).nmiPending = s.nmiPending := rfl
@[simp] theorem State.setI_mem (s : State) (b : Bool) : (s.setI b).mem = s.mem := rfl
@[simp] theorem State.setI_memMap (s : State) (b : Bool) : (s.setI b).memMap = s.memMap := rfl
@[simp] theorem State.setI_vectors (s : State) (b : Bool) : (s.setI b).vectors = s.vectors := rfl
@[simp] theorem State.setI_inputs (s : State) (b : Bool) : (s.setI b).inputs = s.inputs := rfl
@[simp] theorem State.setI_deviceWrites (s : State) (b : Bool) : (s.setI b).deviceWrites = s.deviceWrites := rfl
@[simp] theorem State.setI_draw (s : State) (b : Bool) : (s.setI b).draw = s.draw := rfl

@[simp] theorem State.setI_flagN (s : State) (b : Bool) : (s.setI b).flagN = s.flagN := by
  simp [State.flagN, getElem_setBit]
@[simp] theorem State.setI_flagV (s : State) (b : Bool) : (s.setI b).flagV = s.flagV := by
  simp [State.flagV, getElem_setBit]
@[simp] theorem State.setI_flagM (s : State) (b : Bool) : (s.setI b).flagM = s.flagM := by
  simp [State.flagM, getElem_setBit]
@[simp] theorem State.setI_flagX (s : State) (b : Bool) : (s.setI b).flagX = s.flagX := by
  simp [State.flagX, getElem_setBit]
@[simp] theorem State.setI_flagD (s : State) (b : Bool) : (s.setI b).flagD = s.flagD := by
  simp [State.flagD, getElem_setBit]
@[simp] theorem State.setI_flagI (s : State) (b : Bool) : (s.setI b).flagI = b := by
  simp [State.flagI, getElem_setBit]
@[simp] theorem State.setI_flagZ (s : State) (b : Bool) : (s.setI b).flagZ = s.flagZ := by
  simp [State.flagZ, getElem_setBit]
@[simp] theorem State.setI_flagC (s : State) (b : Bool) : (s.setI b).flagC = s.flagC := by
  simp [State.flagC, getElem_setBit]
@[simp] theorem State.setI_wA (s : State) (b : Bool) : (s.setI b).wA = s.wA := by simp [State.wA]
@[simp] theorem State.setI_wI (s : State) (b : Bool) : (s.setI b).wI = s.wI := by simp [State.wI]

/-! ### `setZ` -/

@[simp] theorem State.setZ_c (s : State) (b : Bool) : (s.setZ b).c = s.c := rfl
@[simp] theorem State.setZ_x (s : State) (b : Bool) : (s.setZ b).x = s.x := rfl
@[simp] theorem State.setZ_y (s : State) (b : Bool) : (s.setZ b).y = s.y := rfl
@[simp] theorem State.setZ_s (s : State) (b : Bool) : (s.setZ b).s = s.s := rfl
@[simp] theorem State.setZ_d (s : State) (b : Bool) : (s.setZ b).d = s.d := rfl
@[simp] theorem State.setZ_dbr (s : State) (b : Bool) : (s.setZ b).dbr = s.dbr := rfl
@[simp] theorem State.setZ_pbr (s : State) (b : Bool) : (s.setZ b).pbr = s.pbr := rfl
@[simp] theorem State.setZ_pc (s : State) (b : Bool) : (s.setZ b).pc = s.pc := rfl
@[simp] theorem State.setZ_p (s : State) (b : Bool) : (s.setZ b).p = setBit s.p 1 b := rfl
@[simp] theorem State.setZ_e (s : State) (b : Bool) : (s.setZ b).e = s.e := rfl
@[simp] theorem State.setZ_run (s : State) (b : Bool) : (s.setZ b).run = s.run := rfl
@[simp] theorem State.setZ_nmiPending (s : State) (b : Bool) : (s.setZ b).nmiPending = s.nmiPending := rfl
@[simp] theorem State.setZ_mem (s : State) (b : Bool) : (s.setZ b).mem = s.mem := rfl
@[simp] theorem State.setZ_memMap (s : State) (b : Bool) : (s.setZ b).memMap = s.memMap := rfl
@[simp] theorem State.setZ_vectors (s : State) (b : Bool) : (s.setZ b).vectors = s.vectors := rfl
@[simp] theorem State.setZ_inputs (s : State) (b : Bool) : (s.setZ b).inputs = s.inputs := rfl
@[simp] theorem State.setZ_deviceWrites (s : State) (b : Bool) : (s.setZ b).deviceWrites = s.deviceWrites := rfl
@[simp] theorem State.setZ_draw (s : State) (b : Bool) : (s.setZ b).draw = s.draw := rfl

@[simp] theorem State.setZ_flagN (s : State) (b : Bool) : (s.setZ b).flagN = s.flagN := by
  simp [State.flagN, getElem_setBit]
@[simp] theorem State.setZ_flagV (s : State) (b : Bool) : (s.setZ b).flagV = s.flagV := by
  simp [State.flagV, getElem_setBit]
@[simp] theorem State.setZ_flagM (s : State) (b : Bool) : (s.setZ b).flagM = s.flagM := by
  simp [State.flagM, getElem_setBit]
@[simp] theorem State.setZ_flagX (s : State) (b : Bool) : (s.setZ b).flagX = s.flagX := by
  simp [State.flagX, getElem_setBit]
@[simp] theorem State.setZ_flagD (s : State) (b : Bool) : (s.setZ b).flagD = s.flagD := by
  simp [State.flagD, getElem_setBit]
@[simp] theorem State.setZ_flagI (s : State) (b : Bool) : (s.setZ b).flagI = s.flagI := by
  simp [State.flagI, getElem_setBit]
@[simp] theorem State.setZ_flagZ (s : State) (b : Bool) : (s.setZ b).flagZ = b := by
  simp [State.flagZ, getElem_setBit]
@[simp] theorem State.setZ_flagC (s : State) (b : Bool) : (s.setZ b).flagC = s.flagC := by
  simp [State.flagC, getElem_setBit]
@[simp] theorem State.setZ_wA (s : State) (b : Bool) : (s.setZ b).wA = s.wA := by simp [State.wA]
@[simp] theorem State.setZ_wI (s : State) (b : Bool) : (s.setZ b).wI = s.wI := by simp [State.wI]

/-! ### `setC` -/

@[simp] theorem State.setC_c (s : State) (b : Bool) : (s.setC b).c = s.c := rfl
@[simp] theorem State.setC_x (s : State) (b : Bool) : (s.setC b).x = s.x := rfl
@[simp] theorem State.setC_y (s : State) (b : Bool) : (s.setC b).y = s.y := rfl
@[simp] theorem State.setC_s (s : State) (b : Bool) : (s.setC b).s = s.s := rfl
@[simp] theorem State.setC_d (s : State) (b : Bool) : (s.setC b).d = s.d := rfl
@[simp] theorem State.setC_dbr (s : State) (b : Bool) : (s.setC b).dbr = s.dbr := rfl
@[simp] theorem State.setC_pbr (s : State) (b : Bool) : (s.setC b).pbr = s.pbr := rfl
@[simp] theorem State.setC_pc (s : State) (b : Bool) : (s.setC b).pc = s.pc := rfl
@[simp] theorem State.setC_p (s : State) (b : Bool) : (s.setC b).p = setBit s.p 0 b := rfl
@[simp] theorem State.setC_e (s : State) (b : Bool) : (s.setC b).e = s.e := rfl
@[simp] theorem State.setC_run (s : State) (b : Bool) : (s.setC b).run = s.run := rfl
@[simp] theorem State.setC_nmiPending (s : State) (b : Bool) : (s.setC b).nmiPending = s.nmiPending := rfl
@[simp] theorem State.setC_mem (s : State) (b : Bool) : (s.setC b).mem = s.mem := rfl
@[simp] theorem State.setC_memMap (s : State) (b : Bool) : (s.setC b).memMap = s.memMap := rfl
@[simp] theorem State.setC_vectors (s : State) (b : Bool) : (s.setC b).vectors = s.vectors := rfl
@[simp] theorem State.setC_inputs (s : State) (b : Bool) : (s.setC b).inputs = s.inputs := rfl
@[simp] theorem State.setC_deviceWrites (s : State) (b : Bool) : (s.setC b).deviceWrites = s.deviceWrites := rfl
@[simp] theorem State.setC_draw (s : State) (b : Bool) : (s.setC b).draw = s.draw := rfl

@[simp] theorem State.setC_flagN (s : State) (b : Bool) : (s.setC b).flagN = s.flagN := by
  simp [State.flagN, getElem_setBit]
@[simp] theorem State.setC_flagV (s : State) (b : Bool) : (s.setC b).flagV = s.flagV := by
  simp [State.flagV, getElem_setBit]
@[simp] theorem State.setC_flagM (s : State) (b : Bool) : (s.setC b).flagM = s.flagM := by
  simp [State.flagM, getElem_setBit]
@[simp] theorem State.setC_flagX (s : State) (b : Bool) : (s.setC b).flagX = s.flagX := by
  simp [State.flagX, getElem_setBit]
@[simp] theorem State.setC_flagD (s : State) (b : Bool) : (s.setC b).flagD = s.flagD := by
  simp [State.flagD, getElem_setBit]
@[simp] theorem State.setC_flagI (s : State) (b : Bool) : (s.setC b).flagI = s.flagI := by
  simp [State.flagI, getElem_setBit]
@[simp] theorem State.setC_flagZ (s : State) (b : Bool) : (s.setC b).flagZ = s.flagZ := by
  simp [State.flagZ, getElem_setBit]
@[simp] theorem State.setC_flagC (s : State) (b : Bool) : (s.setC b).flagC = b := by
  simp [State.flagC, getElem_setBit]
@[simp] theorem State.setC_wA (s : State) (b : Bool) : (s.setC b).wA = s.wA := by simp [State.wA]
@[simp] theorem State.setC_wI (s : State) (b : Bool) : (s.setC b).wI = s.wI := by simp [State.wI]

/-! ### `setNZ` -/

@[simp] theorem State.setNZ_c (s : State) {w : Nat} (v : BitVec w) : (s.setNZ v).c = s.c := rfl
@[simp] theorem State.setNZ_x (s : State) {w : Nat} (v : BitVec w) : (s.setNZ v).x = s.x := rfl
@[simp] theorem State.setNZ_y (s : State) {w : Nat} (v : BitVec w) : (s.setNZ v).y = s.y := rfl
@[simp] theorem State.setNZ_s (s : State) {w : Nat} (v : BitVec w) : (s.setNZ v).s = s.s := rfl
@[simp] theorem State.setNZ_d (s : State) {w : Nat} (v : BitVec w) : (s.setNZ v).d = s.d := rfl
@[simp] theorem State.setNZ_dbr (s : State) {w : Nat} (v : BitVec w) : (s.setNZ v).dbr = s.dbr := rfl
@[simp] theorem State.setNZ_pbr (s : State) {w : Nat} (v : BitVec w) : (s.setNZ v).pbr = s.pbr := rfl
@[simp] theorem State.setNZ_pc (s : State) {w : Nat} (v : BitVec w) : (s.setNZ v).pc = s.pc := rfl
@[simp] theorem State.setNZ_p (s : State) {w : Nat} (v : BitVec w) : (s.setNZ v).p = setBit (setBit s.p 7 v.msb) 1 (v == 0) := rfl
@[simp] theorem State.setNZ_e (s : State) {w : Nat} (v : BitVec w) : (s.setNZ v).e = s.e := rfl
@[simp] theorem State.setNZ_run (s : State) {w : Nat} (v : BitVec w) : (s.setNZ v).run = s.run := rfl
@[simp] theorem State.setNZ_nmiPending (s : State) {w : Nat} (v : BitVec w) : (s.setNZ v).nmiPending = s.nmiPending := rfl
@[simp] theorem State.setNZ_mem (s : State) {w : Nat} (v : BitVec w) : (s.setNZ v).mem = s.mem := rfl
@[simp] theorem State.setNZ_memMap (s : State) {w : Nat} (v : BitVec w) : (s.setNZ v).memMap = s.memMap := rfl
@[simp] theorem State.setNZ_vectors (s : State) {w : Nat} (v : BitVec w) : (s.setNZ v).vectors = s.vectors := rfl
@[simp] theorem State.setNZ_inputs (s : State) {w : Nat} (v : BitVec w) : (s.setNZ v).inputs = s.inputs := rfl
@[simp] theorem State.setNZ_deviceWrites (s : State) {w : Nat} (v : BitVec w) : (s.setNZ v).deviceWrites = s.deviceWrites := rfl
@[simp] theorem State.setNZ_draw (s : State) {w : Nat} (v : BitVec w) : (s.setNZ v).draw = s.draw := rfl

@[simp] theorem State.setNZ_flagN (s : State) {w : Nat} (v : BitVec w) : (s.setNZ v).flagN = v.msb := by
  simp [State.flagN, getElem_setBit]
@[simp] theorem State.setNZ_flagV (s : State) {w : Nat} (v : BitVec w) : (s.setNZ v).flagV = s.flagV := by
  simp [State.flagV, getElem_setBit]
@[simp] theorem State.setNZ_flagM (s : State) {w : Nat} (v : BitVec w) : (s.setNZ v).flagM = s.flagM := by
  simp [State.flagM, getElem_setBit]
@[simp] theorem State.setNZ_flagX (s : State) {w : Nat} (v : BitVec w) : (s.setNZ v).flagX = s.flagX := by
  simp [State.flagX, getElem_setBit]
@[simp] theorem State.setNZ_flagD (s : State) {w : Nat} (v : BitVec w) : (s.setNZ v).flagD = s.flagD := by
  simp [State.flagD, getElem_setBit]
@[simp] theorem State.setNZ_flagI (s : State) {w : Nat} (v : BitVec w) : (s.setNZ v).flagI = s.flagI := by
  simp [State.flagI, getElem_setBit]
@[simp] theorem State.setNZ_flagZ (s : State) {w : Nat} (v : BitVec w) : (s.setNZ v).flagZ = (v == 0) := by
  simp [State.flagZ, getElem_setBit]
@[simp] theorem State.setNZ_flagC (s : State) {w : Nat} (v : BitVec w) : (s.setNZ v).flagC = s.flagC := by
  simp [State.flagC, getElem_setBit]
@[simp] theorem State.setNZ_wA (s : State) {w : Nat} (v : BitVec w) : (s.setNZ v).wA = s.wA := by simp [State.wA]
@[simp] theorem State.setNZ_wI (s : State) {w : Nat} (v : BitVec w) : (s.setNZ v).wI = s.wI := by simp [State.wI]

/-! ### `writeA` -/

@[simp] theorem State.writeA_c (s : State) {w : Nat} (v : BitVec w) : (s.writeA v).c = if s.flagM then word (hi s.c) (v.setWidth 8) else v.setWidth 16 := rfl
@[simp] theorem State.writeA_x (s : State) {w : Nat} (v : BitVec w) : (s.writeA v).x = s.x := rfl
@[simp] theorem State.writeA_y (s : State) {w : Nat} (v : BitVec w) : (s.writeA v).y = s.y := rfl
@[simp] theorem State.writeA_s (s : State) {w : Nat} (v : BitVec w) : (s.writeA v).s = s.s := rfl
@[simp] theorem State.writeA_d (s : State) {w : Nat} (v : BitVec w) : (s.writeA v).d = s.d := rfl
@[simp] theorem State.writeA_dbr (s : State) {w : Nat} (v : BitVec w) : (s.writeA v).dbr = s.dbr := rfl
@[simp] theorem State.writeA_pbr (s : State) {w : Nat} (v : BitVec w) : (s.writeA v).pbr = s.pbr := rfl
@[simp] theorem State.writeA_pc (s : State) {w : Nat} (v : BitVec w) : (s.writeA v).pc = s.pc := rfl
@[simp] theorem State.writeA_p (s : State) {w : Nat} (v : BitVec w) : (s.writeA v).p = s.p := rfl
@[simp] theorem State.writeA_e (s : State) {w : Nat} (v : BitVec w) : (s.writeA v).e = s.e := rfl
@[simp] theorem State.writeA_run (s : State) {w : Nat} (v : BitVec w) : (s.writeA v).run = s.run := rfl
@[simp] theorem State.writeA_nmiPending (s : State) {w : Nat} (v : BitVec w) : (s.writeA v).nmiPending = s.nmiPending := rfl
@[simp] theorem State.writeA_mem (s : State) {w : Nat} (v : BitVec w) : (s.writeA v).mem = s.mem := rfl
@[simp] theorem State.writeA_memMap (s : State) {w : Nat} (v : BitVec w) : (s.writeA v).memMap = s.memMap := rfl
@[simp] theorem State.writeA_vectors (s : State) {w : Nat} (v : BitVec w) : (s.writeA v).vectors = s.vectors := rfl
@[simp] theorem State.writeA_inputs (s : State) {w : Nat} (v : BitVec w) : (s.writeA v).inputs = s.inputs := rfl
@[simp] theorem State.writeA_deviceWrites (s : State) {w : Nat} (v : BitVec w) : (s.writeA v).deviceWrites = s.deviceWrites := rfl
@[simp] theorem State.writeA_draw (s : State) {w : Nat} (v : BitVec w) : (s.writeA v).draw = s.draw := rfl

@[simp] theorem State.writeA_flagN (s : State) {w : Nat} (v : BitVec w) : (s.writeA v).flagN = s.flagN := rfl
@[simp] theorem State.writeA_flagV (s : State) {w : Nat} (v : BitVec w) : (s.writeA v).flagV = s.flagV := rfl
@[simp] theorem State.writeA_flagM (s : State) {w : Nat} (v : BitVec w) : (s.writeA v).flagM = s.flagM := rfl
@[simp] theorem State.writeA_flagX (s : State) {w : Nat} (v : BitVec w) : (s.writeA v).flagX = s.flagX := rfl
@[simp] theorem State.writeA_flagD (s : State) {w : Nat} (v : BitVec w) : (s.writeA v).flagD = s.flagD := rfl
@[simp] theorem State.writeA_flagI (s : State) {w : Nat} (v : BitVec w) : (s.writeA v).flagI = s.flagI := rfl
@[simp] theorem State.writeA_flagZ (s : State) {w : Nat} (v : BitVec w) : (s.writeA v).flagZ = s.flagZ := rfl
@[simp] theorem State.writeA_flagC (s : State) {w : Nat} (v : BitVec w) : (s.writeA v).flagC = s.flagC := rfl
@[simp] theorem State.writeA_wA (s : State) {w : Nat} (v : BitVec w) : (s.writeA v).wA = s.wA := by simp [State.wA]
@[simp] theorem State.writeA_wI (s : State) {w : Nat} (v : BitVec w) : (s.writeA v).wI = s.wI := by simp [State.wI]

/-! ### `writeX` -/

@[simp] theorem State.writeX_c (s : State) {w : Nat} (v : BitVec w) : (s.writeX v).c = s.c := rfl
@[simp] theorem State.writeX_x (s : State) {w : Nat} (v : BitVec w) : (s.writeX v).x = if s.flagX then word 0 (v.setWidth 8) else v.setWidth 16 := rfl
@[simp] theorem State.writeX_y (s : State) {w : Nat} (v : BitVec w) : (s.writeX v).y = s.y := rfl
@[simp] theorem State.writeX_s (s : State) {w : Nat} (v : BitVec w) : (s.writeX v).s = s.s := rfl
@[simp] theorem State.writeX_d (s : State) {w : Nat} (v : BitVec w) : (s.writeX v).d = s.d := rfl
@[simp] theorem State.writeX_dbr (s : State) {w : Nat} (v : BitVec w) : (s.writeX v).dbr = s.dbr := rfl
@[simp] theorem State.writeX_pbr (s : State) {w : Nat} (v : BitVec w) : (s.writeX v).pbr = s.pbr := rfl
@[simp] theorem State.writeX_pc (s : State) {w : Nat} (v : BitVec w) : (s.writeX v).pc = s.pc := rfl
@[simp] theorem State.writeX_p (s : State) {w : Nat} (v : BitVec w) : (s.writeX v).p = s.p := rfl
@[simp] theorem State.writeX_e (s : State) {w : Nat} (v : BitVec w) : (s.writeX v).e = s.e := rfl
@[simp] theorem State.writeX_run (s : State) {w : Nat} (v : BitVec w) : (s.writeX v).run = s.run := rfl
@[simp] theorem State.writeX_nmiPending (s : State) {w : Nat} (v : BitVec w) : (s.writeX v).nmiPending = s.nmiPending := rfl
@[simp] theorem State.writeX_mem (s : State) {w : Nat} (v : BitVec w) : (s.writeX v).mem = s.mem := rfl
@[simp] theorem State.writeX_memMap (s : State) {w : Nat} (v : BitVec w) : (s.writeX v).memMap = s.memMap := rfl
@[simp] theorem State.writeX_vectors (s : State) {w : Nat} (v : BitVec w) : (s.writeX v).vectors = s.vectors := rfl
@[simp] theorem State.writeX_inputs (s : State) {w : Nat} (v : BitVec w) : (s.writeX v).inputs = s.inputs := rfl
@[simp] theorem State.writeX_deviceWrites (s : State) {w : Nat} (v : BitVec w) : (s.writeX v).deviceWrites = s.deviceWrites := rfl
@[simp] theorem State.writeX_draw (s : State) {w : Nat} (v : BitVec w) : (s.writeX v).draw = s.draw := rfl

@[simp] theorem State.writeX_flagN (s : State) {w : Nat} (v : BitVec w) : (s.writeX v).flagN = s.flagN := rfl
@[simp] theorem State.writeX_flagV (s : State) {w : Nat} (v : BitVec w) : (s.writeX v).flagV = s.flagV := rfl
@[simp] theorem State.writeX_flagM (s : State) {w : Nat} (v : BitVec w) : (s.writeX v).flagM = s.flagM := rfl
@[simp] theorem State.writeX_flagX (s : State) {w : Nat} (v : BitVec w) : (s.writeX v).flagX = s.flagX := rfl
@[simp] theorem State.writeX_flagD (s : State) {w : Nat} (v : BitVec w) : (s.writeX v).flagD = s.flagD := rfl
@[simp] theorem State.writeX_flagI (s : State) {w : Nat} (v : BitVec w) : (s.writeX v).flagI = s.flagI := rfl
@[simp] theorem State.writeX_flagZ (s : State) {w : Nat} (v : BitVec w) : (s.writeX v).flagZ = s.flagZ := rfl
@[simp] theorem State.writeX_flagC (s : State) {w : Nat} (v : BitVec w) : (s.writeX v).flagC = s.flagC := rfl
@[simp] theorem State.writeX_wA (s : State) {w : Nat} (v : BitVec w) : (s.writeX v).wA = s.wA := by simp [State.wA]
@[simp] theorem State.writeX_wI (s : State) {w : Nat} (v : BitVec w) : (s.writeX v).wI = s.wI := by simp [State.wI]

/-! ### `writeY` -/

@[simp] theorem State.writeY_c (s : State) {w : Nat} (v : BitVec w) : (s.writeY v).c = s.c := rfl
@[simp] theorem State.writeY_x (s : State) {w : Nat} (v : BitVec w) : (s.writeY v).x = s.x := rfl
@[simp] theorem State.writeY_y (s : State) {w : Nat} (v : BitVec w) : (s.writeY v).y = if s.flagX then word 0 (v.setWidth 8) else v.setWidth 16 := rfl
@[simp] theorem State.writeY_s (s : State) {w : Nat} (v : BitVec w) : (s.writeY v).s = s.s := rfl
@[simp] theorem State.writeY_d (s : State) {w : Nat} (v : BitVec w) : (s.writeY v).d = s.d := rfl
@[simp] theorem State.writeY_dbr (s : State) {w : Nat} (v : BitVec w) : (s.writeY v).dbr = s.dbr := rfl
@[simp] theorem State.writeY_pbr (s : State) {w : Nat} (v : BitVec w) : (s.writeY v).pbr = s.pbr := rfl
@[simp] theorem State.writeY_pc (s : State) {w : Nat} (v : BitVec w) : (s.writeY v).pc = s.pc := rfl
@[simp] theorem State.writeY_p (s : State) {w : Nat} (v : BitVec w) : (s.writeY v).p = s.p := rfl
@[simp] theorem State.writeY_e (s : State) {w : Nat} (v : BitVec w) : (s.writeY v).e = s.e := rfl
@[simp] theorem State.writeY_run (s : State) {w : Nat} (v : BitVec w) : (s.writeY v).run = s.run := rfl
@[simp] theorem State.writeY_nmiPending (s : State) {w : Nat} (v : BitVec w) : (s.writeY v).nmiPending = s.nmiPending := rfl
@[simp] theorem State.writeY_mem (s : State) {w : Nat} (v : BitVec w) : (s.writeY v).mem = s.mem := rfl
@[simp] theorem State.writeY_memMap (s : State) {w : Nat} (v : BitVec w) : (s.writeY v).memMap = s.memMap := rfl
@[simp] theorem State.writeY_vectors (s : State) {w : Nat} (v : BitVec w) : (s.writeY v).vectors = s.vectors := rfl
@[simp] theorem State.writeY_inputs (s : State) {w : Nat} (v : BitVec w) : (s.writeY v).inputs = s.inputs := rfl
@[simp] theorem State.writeY_deviceWrites (s : State) {w : Nat} (v : BitVec w) : (s.writeY v).deviceWrites = s.deviceWrites := rfl
@[simp] theorem State.writeY_draw (s : State) {w : Nat} (v : BitVec w) : (s.writeY v).draw = s.draw := rfl

@[simp] theorem State.writeY_flagN (s : State) {w : Nat} (v : BitVec w) : (s.writeY v).flagN = s.flagN := rfl
@[simp] theorem State.writeY_flagV (s : State) {w : Nat} (v : BitVec w) : (s.writeY v).flagV = s.flagV := rfl
@[simp] theorem State.writeY_flagM (s : State) {w : Nat} (v : BitVec w) : (s.writeY v).flagM = s.flagM := rfl
@[simp] theorem State.writeY_flagX (s : State) {w : Nat} (v : BitVec w) : (s.writeY v).flagX = s.flagX := rfl
@[simp] theorem State.writeY_flagD (s : State) {w : Nat} (v : BitVec w) : (s.writeY v).flagD = s.flagD := rfl
@[simp] theorem State.writeY_flagI (s : State) {w : Nat} (v : BitVec w) : (s.writeY v).flagI = s.flagI := rfl
@[simp] theorem State.writeY_flagZ (s : State) {w : Nat} (v : BitVec w) : (s.writeY v).flagZ = s.flagZ := rfl
@[simp] theorem State.writeY_flagC (s : State) {w : Nat} (v : BitVec w) : (s.writeY v).flagC = s.flagC := rfl
@[simp] theorem State.writeY_wA (s : State) {w : Nat} (v : BitVec w) : (s.writeY v).wA = s.wA := by simp [State.wA]
@[simp] theorem State.writeY_wI (s : State) {w : Nat} (v : BitVec w) : (s.writeY v).wI = s.wI := by simp [State.wI]

/-! ### `advance` -/

@[simp] theorem State.advance_c (s : State) (n : Nat) : (s.advance n).c = s.c := rfl
@[simp] theorem State.advance_x (s : State) (n : Nat) : (s.advance n).x = s.x := rfl
@[simp] theorem State.advance_y (s : State) (n : Nat) : (s.advance n).y = s.y := rfl
@[simp] theorem State.advance_s (s : State) (n : Nat) : (s.advance n).s = s.s := rfl
@[simp] theorem State.advance_d (s : State) (n : Nat) : (s.advance n).d = s.d := rfl
@[simp] theorem State.advance_dbr (s : State) (n : Nat) : (s.advance n).dbr = s.dbr := rfl
@[simp] theorem State.advance_pbr (s : State) (n : Nat) : (s.advance n).pbr = s.pbr := rfl
@[simp] theorem State.advance_pc (s : State) (n : Nat) : (s.advance n).pc = s.pc + BitVec.ofNat 16 n := rfl
@[simp] theorem State.advance_p (s : State) (n : Nat) : (s.advance n).p = s.p := rfl
@[simp] theorem State.advance_e (s : State) (n : Nat) : (s.advance n).e = s.e := rfl
@[simp] theorem State.advance_run (s : State) (n : Nat) : (s.advance n).run = s.run := rfl
@[simp] theorem State.advance_nmiPending (s : State) (n : Nat) : (s.advance n).nmiPending = s.nmiPending := rfl
@[simp] theorem State.advance_mem (s : State) (n : Nat) : (s.advance n).mem = s.mem := rfl
@[simp] theorem State.advance_memMap (s : State) (n : Nat) : (s.advance n).memMap = s.memMap := rfl
@[simp] theorem State.advance_vectors (s : State) (n : Nat) : (s.advance n).vectors = s.vectors := rfl
@[simp] theorem State.advance_inputs (s : State) (n : Nat) : (s.advance n).inputs = s.inputs := rfl
@[simp] theorem State.advance_deviceWrites (s : State) (n : Nat) : (s.advance n).deviceWrites = s.deviceWrites := rfl
@[simp] theorem State.advance_draw (s : State) (n : Nat) : (s.advance n).draw = s.draw := rfl

@[simp] theorem State.advance_flagN (s : State) (n : Nat) : (s.advance n).flagN = s.flagN := rfl
@[simp] theorem State.advance_flagV (s : State) (n : Nat) : (s.advance n).flagV = s.flagV := rfl
@[simp] theorem State.advance_flagM (s : State) (n : Nat) : (s.advance n).flagM = s.flagM := rfl
@[simp] theorem State.advance_flagX (s : State) (n : Nat) : (s.advance n).flagX = s.flagX := rfl
@[simp] theorem State.advance_flagD (s : State) (n : Nat) : (s.advance n).flagD = s.flagD := rfl
@[simp] theorem State.advance_flagI (s : State) (n : Nat) : (s.advance n).flagI = s.flagI := rfl
@[simp] theorem State.advance_flagZ (s : State) (n : Nat) : (s.advance n).flagZ = s.flagZ := rfl
@[simp] theorem State.advance_flagC (s : State) (n : Nat) : (s.advance n).flagC = s.flagC := rfl
@[simp] theorem State.advance_wA (s : State) (n : Nat) : (s.advance n).wA = s.wA := by simp [State.wA]
@[simp] theorem State.advance_wI (s : State) (n : Nat) : (s.advance n).wI = s.wI := by simp [State.wI]

/-! ### `narrowIndex` -/

@[simp] theorem State.narrowIndex_c (s : State) : (s.narrowIndex).c = s.c := by unfold State.narrowIndex; split <;> rfl
@[simp] theorem State.narrowIndex_x (s : State) : (s.narrowIndex).x = if s.flagX then word 0 (lo s.x) else s.x := by unfold State.narrowIndex; split <;> rfl
@[simp] theorem State.narrowIndex_y (s : State) : (s.narrowIndex).y = if s.flagX then word 0 (lo s.y) else s.y := by unfold State.narrowIndex; split <;> rfl
@[simp] theorem State.narrowIndex_s (s : State) : (s.narrowIndex).s = s.s := by unfold State.narrowIndex; split <;> rfl
@[simp] theorem State.narrowIndex_d (s : State) : (s.narrowIndex).d = s.d := by unfold State.narrowIndex; split <;> rfl
@[simp] theorem State.narrowIndex_dbr (s : State) : (s.narrowIndex).dbr = s.dbr := by unfold State.narrowIndex; split <;> rfl
@[simp] theorem State.narrowIndex_pbr (s : State) : (s.narrowIndex).pbr = s.pbr := by unfold State.narrowIndex; split <;> rfl
@[simp] theorem State.narrowIndex_pc (s : State) : (s.narrowIndex).pc = s.pc := by unfold State.narrowIndex; split <;> rfl
@[simp] theorem State.narrowIndex_p (s : State) : (s.narrowIndex).p = s.p := by unfold State.narrowIndex; split <;> rfl
@[simp] theorem State.narrowIndex_e (s : State) : (s.narrowIndex).e = s.e := by unfold State.narrowIndex; split <;> rfl
@[simp] theorem State.narrowIndex_run (s : State) : (s.narrowIndex).run = s.run := by unfold State.narrowIndex; split <;> rfl
@[simp] theorem State.narrowIndex_nmiPending (s : State) : (s.narrowIndex).nmiPending = s.nmiPending := by unfold State.narrowIndex; split <;> rfl
@[simp] theorem State.narrowIndex_mem (s : State) : (s.narrowIndex).mem = s.mem := by unfold State.narrowIndex; split <;> rfl
@[simp] theorem State.narrowIndex_memMap (s : State) : (s.narrowIndex).memMap = s.memMap := by unfold State.narrowIndex; split <;> rfl
@[simp] theorem State.narrowIndex_vectors (s : State) : (s.narrowIndex).vectors = s.vectors := by unfold State.narrowIndex; split <;> rfl
@[simp] theorem State.narrowIndex_inputs (s : State) : (s.narrowIndex).inputs = s.inputs := by unfold State.narrowIndex; split <;> rfl
@[simp] theorem State.narrowIndex_deviceWrites (s : State) : (s.narrowIndex).deviceWrites = s.deviceWrites := by unfold State.narrowIndex; split <;> rfl
@[simp] theorem State.narrowIndex_draw (s : State) : (s.narrowIndex).draw = s.draw := by unfold State.narrowIndex; split <;> rfl

@[simp] theorem State.narrowIndex_flagN (s : State) : (s.narrowIndex).flagN = s.flagN := by simp [State.flagN]
@[simp] theorem State.narrowIndex_flagV (s : State) : (s.narrowIndex).flagV = s.flagV := by simp [State.flagV]
@[simp] theorem State.narrowIndex_flagM (s : State) : (s.narrowIndex).flagM = s.flagM := by simp [State.flagM]
@[simp] theorem State.narrowIndex_flagX (s : State) : (s.narrowIndex).flagX = s.flagX := by simp [State.flagX]
@[simp] theorem State.narrowIndex_flagD (s : State) : (s.narrowIndex).flagD = s.flagD := by simp [State.flagD]
@[simp] theorem State.narrowIndex_flagI (s : State) : (s.narrowIndex).flagI = s.flagI := by simp [State.flagI]
@[simp] theorem State.narrowIndex_flagZ (s : State) : (s.narrowIndex).flagZ = s.flagZ := by simp [State.flagZ]
@[simp] theorem State.narrowIndex_flagC (s : State) : (s.narrowIndex).flagC = s.flagC := by simp [State.flagC]
@[simp] theorem State.narrowIndex_wA (s : State) : (s.narrowIndex).wA = s.wA := by simp [State.wA]
@[simp] theorem State.narrowIndex_wI (s : State) : (s.narrowIndex).wI = s.wI := by simp [State.wI]

/-! ### `setP` -/

@[simp] theorem State.setP_c (s : State) (v : Byte) : (s.setP v).c = s.c := by simp [State.setP]
@[simp] theorem State.setP_x (s : State) (v : Byte) : (s.setP v).x = if s.e || v.getLsbD 4 then word 0 (lo s.x) else s.x := by
  cases h : s.e <;> simp [State.setP, State.flagX, h]
@[simp] theorem State.setP_y (s : State) (v : Byte) : (s.setP v).y = if s.e || v.getLsbD 4 then word 0 (lo s.y) else s.y := by
  cases h : s.e <;> simp [State.setP, State.flagX, h]
@[simp] theorem State.setP_s (s : State) (v : Byte) : (s.setP v).s = s.s := by simp [State.setP]
@[simp] theorem State.setP_d (s : State) (v : Byte) : (s.setP v).d = s.d := by simp [State.setP]
@[simp] theorem State.setP_dbr (s : State) (v : Byte) : (s.setP v).dbr = s.dbr := by simp [State.setP]
@[simp] theorem State.setP_pbr (s : State) (v : Byte) : (s.setP v).pbr = s.pbr := by simp [State.setP]
@[simp] theorem State.setP_pc (s : State) (v : Byte) : (s.setP v).pc = s.pc := by simp [State.setP]
@[simp] theorem State.setP_p (s : State) (v : Byte) : (s.setP v).p = if s.e then v ||| 0x30 else v := by simp [State.setP]
@[simp] theorem State.setP_e (s : State) (v : Byte) : (s.setP v).e = s.e := by simp [State.setP]
@[simp] theorem State.setP_run (s : State) (v : Byte) : (s.setP v).run = s.run := by simp [State.setP]
@[simp] theorem State.setP_nmiPending (s : State) (v : Byte) : (s.setP v).nmiPending = s.nmiPending := by simp [State.setP]
@[simp] theorem State.setP_mem (s : State) (v : Byte) : (s.setP v).mem = s.mem := by simp [State.setP]
@[simp] theorem State.setP_memMap (s : State) (v : Byte) : (s.setP v).memMap = s.memMap := by simp [State.setP]
@[simp] theorem State.setP_vectors (s : State) (v : Byte) : (s.setP v).vectors = s.vectors := by simp [State.setP]
@[simp] theorem State.setP_inputs (s : State) (v : Byte) : (s.setP v).inputs = s.inputs := by simp [State.setP]
@[simp] theorem State.setP_deviceWrites (s : State) (v : Byte) : (s.setP v).deviceWrites = s.deviceWrites := by simp [State.setP]
@[simp] theorem State.setP_draw (s : State) (v : Byte) : (s.setP v).draw = s.draw := by simp [State.setP]


/-! ### `applySum` -/

@[simp] theorem State.applySum_c (s : State) {w : Nat} (r : Sum w) : (s.applySum r).c = if s.flagM then word (hi s.c) (r.res.setWidth 8) else r.res.setWidth 16 := by
  simp [State.applySum, State.flagM, getElem_setBit]
@[simp] theorem State.applySum_x (s : State) {w : Nat} (r : Sum w) : (s.applySum r).x = s.x := rfl
@[simp] theorem State.applySum_y (s : State) {w : Nat} (r : Sum w) : (s.applySum r).y = s.y := rfl
@[simp] theorem State.applySum_s (s : State) {w : Nat} (r : Sum w) : (s.applySum r).s = s.s := rfl
@[simp] theorem State.applySum_d (s : State) {w : Nat} (r : Sum w) : (s.applySum r).d = s.d := rfl
@[simp] theorem State.applySum_dbr (s : State) {w : Nat} (r : Sum w) : (s.applySum r).dbr = s.dbr := rfl
@[simp] theorem State.applySum_pbr (s : State) {w : Nat} (r : Sum w) : (s.applySum r).pbr = s.pbr := rfl
@[simp] theorem State.applySum_pc (s : State) {w : Nat} (r : Sum w) : (s.applySum r).pc = s.pc := rfl
@[simp] theorem State.applySum_p (s : State) {w : Nat} (r : Sum w) : (s.applySum r).p = setBit (setBit (setBit (setBit s.p 0 r.carry) 6 r.overflow) 7 r.res.msb) 1 (r.res == 0) := rfl
@[simp] theorem State.applySum_e (s : State) {w : Nat} (r : Sum w) : (s.applySum r).e = s.e := rfl
@[simp] theorem State.applySum_run (s : State) {w : Nat} (r : Sum w) : (s.applySum r).run = s.run := rfl
@[simp] theorem State.applySum_nmiPending (s : State) {w : Nat} (r : Sum w) : (s.applySum r).nmiPending = s.nmiPending := rfl
@[simp] theorem State.applySum_mem (s : State) {w : Nat} (r : Sum w) : (s.applySum r).mem = s.mem := rfl
@[simp] theorem State.applySum_memMap (s : State) {w : Nat} (r : Sum w) : (s.applySum r).memMap = s.memMap := rfl
@[simp] theorem State.applySum_vectors (s : State) {w : Nat} (r : Sum w) : (s.applySum r).vectors = s.vectors := rfl
@[simp] theorem State.applySum_inputs (s : State) {w : Nat} (r : Sum w) : (s.applySum r).inputs = s.inputs := rfl
@[simp] theorem State.applySum_deviceWrites (s : State) {w : Nat} (r : Sum w) : (s.applySum r).deviceWrites = s.deviceWrites := rfl
@[simp] theorem State.applySum_draw (s : State) {w : Nat} (r : Sum w) : (s.applySum r).draw = s.draw := rfl

@[simp] theorem State.applySum_flagN (s : State) {w : Nat} (r : Sum w) : (s.applySum r).flagN = r.res.msb := by
  simp [State.flagN, getElem_setBit]
@[simp] theorem State.applySum_flagV (s : State) {w : Nat} (r : Sum w) : (s.applySum r).flagV = r.overflow := by
  simp [State.flagV, getElem_setBit]
@[simp] theorem State.applySum_flagM (s : State) {w : Nat} (r : Sum w) : (s.applySum r).flagM = s.flagM := by
  simp [State.flagM, getElem_setBit]
@[simp] theorem State.applySum_flagX (s : State) {w : Nat} (r : Sum w) : (s.applySum r).flagX = s.flagX := by
  simp [State.flagX, getElem_setBit]
@[simp] theorem State.applySum_flagD (s : State) {w : Nat} (r : Sum w) : (s.applySum r).flagD = s.flagD := by
  simp [State.flagD, getElem_setBit]
@[simp] theorem State.applySum_flagI (s : State) {w : Nat} (r : Sum w) : (s.applySum r).flagI = s.flagI := by
  simp [State.flagI, getElem_setBit]
@[simp] theorem State.applySum_flagZ (s : State) {w : Nat} (r : Sum w) : (s.applySum r).flagZ = (r.res == 0) := by
  simp [State.flagZ, getElem_setBit]
@[simp] theorem State.applySum_flagC (s : State) {w : Nat} (r : Sum w) : (s.applySum r).flagC = r.carry := by
  simp [State.flagC, getElem_setBit]
@[simp] theorem State.applySum_wA (s : State) {w : Nat} (r : Sum w) : (s.applySum r).wA = s.wA := by simp [State.wA]
@[simp] theorem State.applySum_wI (s : State) {w : Nat} (r : Sum w) : (s.applySum r).wI = s.wI := by simp [State.wI]

/-! ### `compare` -/

@[simp] theorem State.compare_c (s : State) {w : Nat} (a m : BitVec w) : (s.compare a m).c = s.c := rfl
@[simp] theorem State.compare_x (s : State) {w : Nat} (a m : BitVec w) : (s.compare a m).x = s.x := rfl
@[simp] theorem State.compare_y (s : State) {w : Nat} (a m : BitVec w) : (s.compare a m).y = s.y := rfl
@[simp] theorem State.compare_s (s : State) {w : Nat} (a m : BitVec w) : (s.compare a m).s = s.s := rfl
@[simp] theorem State.compare_d (s : State) {w : Nat} (a m : BitVec w) : (s.compare a m).d = s.d := rfl
@[simp] theorem State.compare_dbr (s : State) {w : Nat} (a m : BitVec w) : (s.compare a m).dbr = s.dbr := rfl
@[simp] theorem State.compare_pbr (s : State) {w : Nat} (a m : BitVec w) : (s.compare a m).pbr = s.pbr := rfl
@[simp] theorem State.compare_pc (s : State) {w : Nat} (a m : BitVec w) : (s.compare a m).pc = s.pc := rfl
@[simp] theorem State.compare_p (s : State) {w : Nat} (a m : BitVec w) : (s.compare a m).p = setBit (setBit (setBit s.p 0 (decide (m.toNat ≤ a.toNat))) 7 (a - m).msb) 1 (a - m == 0) := rfl
@[simp] theorem State.compare_e (s : State) {w : Nat} (a m : BitVec w) : (s.compare a m).e = s.e := rfl
@[simp] theorem State.compare_run (s : State) {w : Nat} (a m : BitVec w) : (s.compare a m).run = s.run := rfl
@[simp] theorem State.compare_nmiPending (s : State) {w : Nat} (a m : BitVec w) : (s.compare a m).nmiPending = s.nmiPending := rfl
@[simp] theorem State.compare_mem (s : State) {w : Nat} (a m : BitVec w) : (s.compare a m).mem = s.mem := rfl
@[simp] theorem State.compare_memMap (s : State) {w : Nat} (a m : BitVec w) : (s.compare a m).memMap = s.memMap := rfl
@[simp] theorem State.compare_vectors (s : State) {w : Nat} (a m : BitVec w) : (s.compare a m).vectors = s.vectors := rfl
@[simp] theorem State.compare_inputs (s : State) {w : Nat} (a m : BitVec w) : (s.compare a m).inputs = s.inputs := rfl
@[simp] theorem State.compare_deviceWrites (s : State) {w : Nat} (a m : BitVec w) : (s.compare a m).deviceWrites = s.deviceWrites := rfl
@[simp] theorem State.compare_draw (s : State) {w : Nat} (a m : BitVec w) : (s.compare a m).draw = s.draw := rfl

@[simp] theorem State.compare_flagN (s : State) {w : Nat} (a m : BitVec w) : (s.compare a m).flagN = (a - m).msb := by
  simp [State.flagN, getElem_setBit]
@[simp] theorem State.compare_flagV (s : State) {w : Nat} (a m : BitVec w) : (s.compare a m).flagV = s.flagV := by
  simp [State.flagV, getElem_setBit]
@[simp] theorem State.compare_flagM (s : State) {w : Nat} (a m : BitVec w) : (s.compare a m).flagM = s.flagM := by
  simp [State.flagM, getElem_setBit]
@[simp] theorem State.compare_flagX (s : State) {w : Nat} (a m : BitVec w) : (s.compare a m).flagX = s.flagX := by
  simp [State.flagX, getElem_setBit]
@[simp] theorem State.compare_flagD (s : State) {w : Nat} (a m : BitVec w) : (s.compare a m).flagD = s.flagD := by
  simp [State.flagD, getElem_setBit]
@[simp] theorem State.compare_flagI (s : State) {w : Nat} (a m : BitVec w) : (s.compare a m).flagI = s.flagI := by
  simp [State.flagI, getElem_setBit]
@[simp] theorem State.compare_flagZ (s : State) {w : Nat} (a m : BitVec w) : (s.compare a m).flagZ = (a - m == 0) := by
  simp [State.flagZ, getElem_setBit]
@[simp] theorem State.compare_flagC (s : State) {w : Nat} (a m : BitVec w) : (s.compare a m).flagC = decide (m.toNat ≤ a.toNat) := by
  simp [State.flagC, getElem_setBit]
@[simp] theorem State.compare_wA (s : State) {w : Nat} (a m : BitVec w) : (s.compare a m).wA = s.wA := by simp [State.wA]
@[simp] theorem State.compare_wI (s : State) {w : Nat} (a m : BitVec w) : (s.compare a m).wI = s.wI := by simp [State.wI]

/-! ### `testBits` -/

@[simp] theorem State.testBits_c (s : State) {w : Nat} (a m : BitVec w) : (s.testBits a m).c = s.c := rfl
@[simp] theorem State.testBits_x (s : State) {w : Nat} (a m : BitVec w) : (s.testBits a m).x = s.x := rfl
@[simp] theorem State.testBits_y (s : State) {w : Nat} (a m : BitVec w) : (s.testBits a m).y = s.y := rfl
@[simp] theorem State.testBits_s (s : State) {w : Nat} (a m : BitVec w) : (s.testBits a m).s = s.s := rfl
@[simp] theorem State.testBits_d (s : State) {w : Nat} (a m : BitVec w) : (s.testBits a m).d = s.d := rfl
@[simp] theorem State.testBits_dbr (s : State) {w : Nat} (a m : BitVec w) : (s.testBits a m).dbr = s.dbr := rfl
@[simp] theorem State.testBits_pbr (s : State) {w : Nat} (a m : BitVec w) : (s.testBits a m).pbr = s.pbr := rfl
@[simp] theorem State.testBits_pc (s : State) {w : Nat} (a m : BitVec w) : (s.testBits a m).pc = s.pc := rfl
@[simp] theorem State.testBits_p (s : State) {w : Nat} (a m : BitVec w) : (s.testBits a m).p = setBit s.p 1 (a &&& m == 0) := rfl
@[simp] theorem State.testBits_e (s : State) {w : Nat} (a m : BitVec w) : (s.testBits a m).e = s.e := rfl
@[simp] theorem State.testBits_run (s : State) {w : Nat} (a m : BitVec w) : (s.testBits a m).run = s.run := rfl
@[simp] theorem State.testBits_nmiPending (s : State) {w : Nat} (a m : BitVec w) : (s.testBits a m).nmiPending = s.nmiPending := rfl
@[simp] theorem State.testBits_mem (s : State) {w : Nat} (a m : BitVec w) : (s.testBits a m).mem = s.mem := rfl
@[simp] theorem State.testBits_memMap (s : State) {w : Nat} (a m : BitVec w) : (s.testBits a m).memMap = s.memMap := rfl
@[simp] theorem State.testBits_vectors (s : State) {w : Nat} (a m : BitVec w) : (s.testBits a m).vectors = s.vectors := rfl
@[simp] theorem State.testBits_inputs (s : State) {w : Nat} (a m : BitVec w) : (s.testBits a m).inputs = s.inputs := rfl
@[simp] theorem State.testBits_deviceWrites (s : State) {w : Nat} (a m : BitVec w) : (s.testBits a m).deviceWrites = s.deviceWrites := rfl
@[simp] theorem State.testBits_draw (s : State) {w : Nat} (a m : BitVec w) : (s.testBits a m).draw = s.draw := rfl

@[simp] theorem State.testBits_flagN (s : State) {w : Nat} (a m : BitVec w) : (s.testBits a m).flagN = s.flagN := by
  simp [State.flagN, getElem_setBit]
@[simp] theorem State.testBits_flagV (s : State) {w : Nat} (a m : BitVec w) : (s.testBits a m).flagV = s.flagV := by
  simp [State.flagV, getElem_setBit]
@[simp] theorem State.testBits_flagM (s : State) {w : Nat} (a m : BitVec w) : (s.testBits a m).flagM = s.flagM := by
  simp [State.flagM, getElem_setBit]
@[simp] theorem State.testBits_flagX (s : State) {w : Nat} (a m : BitVec w) : (s.testBits a m).flagX = s.flagX := by
  simp [State.flagX, getElem_setBit]
@[simp] theorem State.testBits_flagD (s : State) {w : Nat} (a m : BitVec w) : (s.testBits a m).flagD = s.flagD := by
  simp [State.flagD, getElem_setBit]
@[simp] theorem State.testBits_flagI (s : State) {w : Nat} (a m : BitVec w) : (s.testBits a m).flagI = s.flagI := by
  simp [State.flagI, getElem_setBit]
@[simp] theorem State.testBits_flagZ (s : State) {w : Nat} (a m : BitVec w) : (s.testBits a m).flagZ = (a &&& m == 0) := by
  simp [State.flagZ, getElem_setBit]
@[simp] theorem State.testBits_flagC (s : State) {w : Nat} (a m : BitVec w) : (s.testBits a m).flagC = s.flagC := by
  simp [State.flagC, getElem_setBit]
@[simp] theorem State.testBits_wA (s : State) {w : Nat} (a m : BitVec w) : (s.testBits a m).wA = s.wA := by simp [State.wA]
@[simp] theorem State.testBits_wI (s : State) {w : Nat} (a m : BitVec w) : (s.testBits a m).wI = s.wI := by simp [State.wI]

/-! ### `forceEmulation` -/

@[simp] theorem State.forceEmulation_c (s : State) : (s.forceEmulation).c = s.c := rfl
@[simp] theorem State.forceEmulation_x (s : State) : (s.forceEmulation).x = word 0 (lo s.x) := rfl
@[simp] theorem State.forceEmulation_y (s : State) : (s.forceEmulation).y = word 0 (lo s.y) := rfl
@[simp] theorem State.forceEmulation_s (s : State) : (s.forceEmulation).s = word 0x01 (lo s.s) := rfl
@[simp] theorem State.forceEmulation_d (s : State) : (s.forceEmulation).d = s.d := rfl
@[simp] theorem State.forceEmulation_dbr (s : State) : (s.forceEmulation).dbr = s.dbr := rfl
@[simp] theorem State.forceEmulation_pbr (s : State) : (s.forceEmulation).pbr = s.pbr := rfl
@[simp] theorem State.forceEmulation_pc (s : State) : (s.forceEmulation).pc = s.pc := rfl
@[simp] theorem State.forceEmulation_p (s : State) : (s.forceEmulation).p = s.p ||| 0x30 := rfl
@[simp] theorem State.forceEmulation_e (s : State) : (s.forceEmulation).e = s.e := rfl
@[simp] theorem State.forceEmulation_run (s : State) : (s.forceEmulation).run = s.run := rfl
@[simp] theorem State.forceEmulation_nmiPending (s : State) : (s.forceEmulation).nmiPending = s.nmiPending := rfl
@[simp] theorem State.forceEmulation_mem (s : State) : (s.forceEmulation).mem = s.mem := rfl
@[simp] theorem State.forceEmulation_memMap (s : State) : (s.forceEmulation).memMap = s.memMap := rfl
@[simp] theorem State.forceEmulation_vectors (s : State) : (s.forceEmulation).vectors = s.vectors := rfl
@[simp] theorem State.forceEmulation_inputs (s : State) : (s.forceEmulation).inputs = s.inputs := rfl
@[simp] theorem State.forceEmulation_deviceWrites (s : State) : (s.forceEmulation).deviceWrites = s.deviceWrites := rfl
@[simp] theorem State.forceEmulation_draw (s : State) : (s.forceEmulation).draw = s.draw := rfl


/-! ### `sample` -/

@[simp] theorem State.sample_c (s : State) : (s.sample).c = s.c := rfl
@[simp] theorem State.sample_x (s : State) : (s.sample).x = s.x := rfl
@[simp] theorem State.sample_y (s : State) : (s.sample).y = s.y := rfl
@[simp] theorem State.sample_s (s : State) : (s.sample).s = s.s := rfl
@[simp] theorem State.sample_d (s : State) : (s.sample).d = s.d := rfl
@[simp] theorem State.sample_dbr (s : State) : (s.sample).dbr = s.dbr := rfl
@[simp] theorem State.sample_pbr (s : State) : (s.sample).pbr = s.pbr := rfl
@[simp] theorem State.sample_pc (s : State) : (s.sample).pc = s.pc := rfl
@[simp] theorem State.sample_p (s : State) : (s.sample).p = s.p := rfl
@[simp] theorem State.sample_e (s : State) : (s.sample).e = s.e := rfl
@[simp] theorem State.sample_run (s : State) : (s.sample).run = s.run := rfl
@[simp] theorem State.sample_nmiPending (s : State) : (s.sample).nmiPending = (s.nmiPending || s.input.nmiEdge) := rfl
@[simp] theorem State.sample_mem (s : State) : (s.sample).mem = s.mem := rfl
@[simp] theorem State.sample_memMap (s : State) : (s.sample).memMap = s.memMap := rfl
@[simp] theorem State.sample_vectors (s : State) : (s.sample).vectors = s.vectors := rfl
@[simp] theorem State.sample_inputs (s : State) : (s.sample).inputs = s.inputs.tail := rfl
@[simp] theorem State.sample_deviceWrites (s : State) : (s.sample).deviceWrites = s.deviceWrites := rfl
@[simp] theorem State.sample_draw (s : State) : (s.sample).draw = s.draw + 1 := rfl

@[simp] theorem State.sample_flagN (s : State) : (s.sample).flagN = s.flagN := rfl
@[simp] theorem State.sample_flagV (s : State) : (s.sample).flagV = s.flagV := rfl
@[simp] theorem State.sample_flagM (s : State) : (s.sample).flagM = s.flagM := rfl
@[simp] theorem State.sample_flagX (s : State) : (s.sample).flagX = s.flagX := rfl
@[simp] theorem State.sample_flagD (s : State) : (s.sample).flagD = s.flagD := rfl
@[simp] theorem State.sample_flagI (s : State) : (s.sample).flagI = s.flagI := rfl
@[simp] theorem State.sample_flagZ (s : State) : (s.sample).flagZ = s.flagZ := rfl
@[simp] theorem State.sample_flagC (s : State) : (s.sample).flagC = s.flagC := rfl
@[simp] theorem State.sample_wA (s : State) : (s.sample).wA = s.wA := by simp [State.wA]
@[simp] theorem State.sample_wI (s : State) : (s.sample).wI = s.wI := by simp [State.wI]

end Sys2Proof.Machine
end

