-- ==== Sys2Proof/Laws/Ops.lean ====
section
/-!
SUPPORT. One lemma per shared operation of Machine/Ops.lean and Machine/Operands.lean that says all it can do: the byte
accesses, multi-byte reads and writes, the stack, interrupt entry and return, the reset sequence, the address functions.
-/
namespace Sys2Proof.Machine

/-! ### Byte accesses -/

theorem State.Writable.readable {s : State} {k : Access} {a : Addr} (h : s.Writable a) : s.Readable k a := by
  rw [State.Readable, show kindAt s.memMap a.toNat = _ from h]; rfl

theorem State.RamOrRom.readable {s : State} {k : Access} {a : Addr} (h : s.RamOrRom a) : s.Readable k a := by
  rcases h with h | h <;> rw [State.Readable, h] <;> rfl

theorem State.TakenByDevice.readable {s : State} {k : Access} {a : Addr} (h : s.TakenByDevice k a) : s.Readable k a := by
  obtain ⟨x, y, h, ht⟩ := h
  rw [State.Readable, h]; exact ht

theorem State.AllRam.writable {s : State} (h : s.AllRam) (a : Addr) : s.Writable a := h a

theorem State.AllRam.readable {s : State} {k : Access} (h : s.AllRam) (a : Addr) : s.Readable k a := (h.writable a).readable

/-- Of RAM and ROM a read sees what they hold. -/
theorem State.RamOrRom.seen {s : State} {a : Addr} (h : s.RamOrRom a) (k : Access) : s.seen k a = s.byteAt a := by
  rcases h with h | h <;> simp only [State.seen, h]

theorem State.Writable.seen {s : State} {a : Addr} (h : s.Writable a) (k : Access) : s.seen k a = s.byteAt a :=
  State.RamOrRom.seen (.inl h) k

/-- Of a device a read sees a free value. -/
theorem State.TakenByDevice.seen {s : State} {j : Access} {a : Addr} (h : s.TakenByDevice j a) (k : Access) :
    s.seen k a = Config.deviceByte s.deviceWrites s.draw k a := by
  obtain ⟨x, y, h, -⟩ := h
  simp only [State.seen, h]

/-- A readable address answers its byte. -/
theorem read8_of_readable {s : State} {k : Access} {a : Addr} (h : s.Readable k a) : read8 s k a = .ok (s.seen k a) := by
  simp only [State.Readable] at h
  simp only [read8, State.seen]
  generalize kindAt s.memMap a.toNat = o at h
  cases o with
  | none => cases h
  | some r => cases r with
    | ram => rfl
    | rom => rfl
    | device x y => exact if_pos h

/-- All a byte read can answer. -/
theorem read8_ok {s : State} {k : Access} {a : Addr} {v : Byte} (h : read8 s k a = .ok v) :
    s.Readable k a ∧ v = s.seen k a := by
  have r : s.Readable k a := by
    simp only [read8] at h
    simp only [State.Readable]
    generalize kindAt s.memMap a.toNat = o at h
    cases o with
    | none => cases h
    | some r => cases r with
      | ram => rfl
      | rom => rfl
      | device x y =>
        show deviceTakes k x y = true
        by_cases ht : deviceTakes k x y = true
        · exact ht
        · simp [ht] at h
  rw [read8_of_readable r] at h
  exact ⟨r, (Except.ok.inj h).symm⟩

/-- RAM takes the byte. -/
theorem write8_of_writable {s : State} {a : Addr} (h : s.Writable a) (k : Access) (v : Byte) :
    write8 s k a v = .ok { s with mem := s.mem.set a.toNat v } := by
  unfold write8
  rw [show kindAt s.memMap a.toNat = _ from h]

/-- A device takes the byte, and the write is recorded. -/
theorem write8_of_takenByDevice {s : State} {k : Access} {a : Addr} (h : s.TakenByDevice k a) (v : Byte) :
    write8 s k a v = .ok { s with deviceWrites := (a.toNat, v) :: s.deviceWrites } := by
  obtain ⟨x, y, h, ht⟩ := h
  unfold write8
  rw [h]
  simp only [ht, if_true]

/-- All a byte write can answer. -/
theorem write8_ok {s t : State} {k : Access} {a : Addr} {v : Byte} (h : write8 s k a v = .ok t) :
    (s.Writable a ∧ t = { s with mem := s.mem.set a.toNat v }) ∨
    (s.TakenByDevice k a ∧ t = { s with deviceWrites := (a.toNat, v) :: s.deviceWrites }) := by
  unfold write8 at h
  split at h
  · next e => exact .inl ⟨e, (Except.ok.inj h).symm⟩
  · cases h
  · next x y e =>
    split at h
    · next ht => exact .inr ⟨⟨x, y, e, ht⟩, (Except.ok.inj h).symm⟩
    · cases h
  · cases h

/-- Why a byte access for the purpose `k` is refused. -/
def Refused (s : State) (r : Refusal) : Prop :=
  ∃ a : Addr, (r = .unmapped a ∧ kindAt s.memMap a.toNat = none) ∨ (r = .romWrite a ∧ kindAt s.memMap a.toNat = some .rom) ∨
    (r = .deviceAccess a ∧ kindAt s.memMap a.toNat = some (.device true false))

theorem not_deviceTakes {k : Access} {x y : Bool} (h : ¬ deviceTakes k x y = true) : x = true ∧ y = false := by
  revert h
  cases k <;> cases x <;> cases y <;> decide

/-- A read is refused at an unmapped address, or in a device region with side effects. -/
theorem read8_error {s : State} {k : Access} {a : Addr} {r : Refusal} (h : read8 s k a = .error r) : Refused s r := by
  unfold read8 at h
  split at h
  · cases h
  · cases h
  · next x y e =>
    split at h
    · cases h
    · next ht =>
      obtain ⟨rfl, rfl⟩ := not_deviceTakes ht
      exact ⟨a, .inr (.inr ⟨(Except.error.inj h).symm, e⟩)⟩
  · next e => exact ⟨a, .inl ⟨(Except.error.inj h).symm, e⟩⟩

/-- A write is refused there too, and in ROM. -/
theorem write8_error {s : State} {k : Access} {a : Addr} {v : Byte} {r : Refusal} (h : write8 s k a v = .error r) :
    Refused s r := by
  unfold write8 at h
  split at h
  · cases h
  · next e => exact ⟨a, .inr (.inl ⟨(Except.error.inj h).symm, e⟩)⟩
  · next x y e =>
    split at h
    · cases h
    · next ht =>
      obtain ⟨rfl, rfl⟩ := not_deviceTakes ht
      exact ⟨a, .inr (.inr ⟨(Except.error.inj h).symm, e⟩)⟩
  · next e => exact ⟨a, .inl ⟨(Except.error.inj h).symm, e⟩⟩

/-- What a byte write can change: the memory and the record of device writes. -/
theorem write8_keeps {s t : State} {k : Access} {a : Addr} {v : Byte} (h : write8 s k a v = .ok t) :
    ∃ m l, t = { s with mem := m, deviceWrites := l } ∧ (s.mem.wf = true → m.wf = true) := by
  rcases write8_ok h with ⟨-, rfl⟩ | ⟨-, rfl⟩
  · exact ⟨_, _, rfl, fun hw => Memory.wf_set v hw a.isLt⟩
  · exact ⟨_, _, rfl, id⟩

/-- What a read sees depends on the memory, the map, the devices' record and the counter of free values alone. -/
theorem seen_congr {s t : State} (hm : s.mem = t.mem) (hk : s.memMap = t.memMap) (hl : s.deviceWrites = t.deviceWrites)
    (hd : s.draw = t.draw) (k : Access) (a : Addr) : s.seen k a = t.seen k a := by
  unfold State.seen State.byteAt
  rw [hm, hk, hl, hd]

theorem read8_congr {s t : State} (hm : s.mem = t.mem) (hk : s.memMap = t.memMap) (hl : s.deviceWrites = t.deviceWrites)
    (hd : s.draw = t.draw) (k : Access) (a : Addr) : read8 s k a = read8 t k a := by
  unfold read8
  rw [hm, hk, hl, hd]

/-! ### Multi-byte reads -/

theorem read16_congr {s t : State} (hm : s.mem = t.mem) (hk : s.memMap = t.memMap) (hl : s.deviceWrites = t.deviceWrites)
    (hd : s.draw = t.draw) (k : Access) (ea : EA) : read16 s k ea = read16 t k ea := by
  simp only [read16, read8_congr hm hk hl hd]

theorem readW_congr {s t : State} (hm : s.mem = t.mem) (hk : s.memMap = t.memMap) (hl : s.deviceWrites = t.deviceWrites)
    (hd : s.draw = t.draw) (k : Access) (ea : EA) (w : Width) : readW s k ea w = readW t k ea w := by
  cases w
  · exact read8_congr hm hk hl hd _ _
  · exact read16_congr hm hk hl hd _ _

theorem valueAt_congr {s t : State} (hm : s.mem = t.mem) (hk : s.memMap = t.memMap) (hl : s.deviceWrites = t.deviceWrites)
    (hd : s.draw = t.draw) (k : Access) (ea : EA) (w : Width) : s.valueAt k ea w = t.valueAt k ea w := by
  cases w <;> simp only [State.valueAt, seen_congr hm hk hl hd]

theorem read16_of_canRead {s : State} {k : Access} {ea : EA} (h : s.CanRead k ea 2) :
    read16 s k ea = .ok (s.valueAt k ea .w16) := by
  unfold read16
  rw [read8_of_readable (h 0 (by omega)), read8_of_readable (h 1 (by omega))]
  rfl

theorem read16_ok {s : State} {k : Access} {ea : EA} {v : Word} (h : read16 s k ea = .ok v) :
    s.CanRead k ea 2 ∧ v = s.valueAt k ea .w16 := by
  unfold read16 at h
  cases h0 : read8 s k (ea 0) with
  | error e => simp [h0, bind, Except.bind] at h
  | ok l =>
    cases h1 : read8 s k (ea 1) with
    | error e => simp [h0, h1, bind, Except.bind] at h
    | ok b =>
      simp only [h0, h1, bind, Except.bind, pure, Except.pure, Except.ok.injEq] at h
      obtain ⟨r0, rfl⟩ := read8_ok h0
      obtain ⟨r1, rfl⟩ := read8_ok h1
      refine ⟨fun k hk => ?_, h.symm⟩
      match k, hk with
      | 0, _ => exact r0
      | 1, _ => exact r1

theorem read24_of_canRead {s : State} {ea : EA} (h : s.CanRead .pointer ea 3) :
    read24 s .pointer ea = .ok (s.pointerAt ea) := by
  unfold read24
  rw [read16_of_canRead fun k hk => h k (by omega)]
  simp only [bind, Except.bind]
  rw [read8_of_readable (h 2 (by omega))]
  rfl

/-- All a read of a datum of width `w` does, when its bytes can be read. -/
theorem readW_of_canRead {s : State} {k : Access} {ea : EA} {w : Width} (h : s.CanRead k ea w.bytes) :
    readW s k ea w = .ok (s.valueAt k ea w) := by
  cases w with
  | w8 => exact read8_of_readable (h 0 (by decide))
  | w16 => exact read16_of_canRead h

theorem readW_ok {s : State} {k : Access} {ea : EA} {w : Width} {v : BitVec w.bits} (h : readW s k ea w = .ok v) :
    s.CanRead k ea w.bytes ∧ v = s.valueAt k ea w := by
  cases w with
  | w8 =>
    obtain ⟨r, e⟩ := read8_ok h
    refine ⟨fun k hk => ?_, e⟩
    match k, hk with
    | 0, _ => exact r
  | w16 => exact read16_ok h

/-! ### Multi-byte writes -/

/-- One byte written, seen by address. -/
theorem get_write {m : Memory} (b a : Addr) (v : Byte) :
    (m.set b.toNat v).get a.toNat = if a = b then v else m.get a.toNat := by
  rw [Memory.get_set]
  by_cases h : a = b
  · subst h; simp
  · have : ¬ b.toNat = a.toNat := fun e => h (BitVec.eq_of_toNat_eq e.symm)
    simp [h, this]

theorem wf_write {m : Memory} (h : m.wf = true) (b : Addr) (v : Byte) : (m.set b.toNat v).wf = true :=
  Memory.wf_set v h b.isLt

/-- All a store does, when its bytes are RAM and lie apart. -/
theorem storeW_of_canWrite {s : State} {k : Access} {ea : EA} {w : Width} (h : s.CanWrite ea w.bytes) (hd : ea 0 ≠ ea 1)
    (v : BitVec w.bits) :
    ∃ m, storeW s k ea w v = .ok { s with mem := m } ∧ StoredAt s.mem m ea w v ∧ (s.mem.wf = true → m.wf = true) := by
  cases w with
  | w8 =>
    refine ⟨_, write8_of_writable (h 0 (by decide)) k v, fun a => ?_, fun hw => wf_write hw _ _⟩
    rw [get_write]
    by_cases ha : a = ea 0 <;> simp [ha]
  | w16 =>
    refine ⟨(s.mem.set (ea 0).toNat (lo v)).set (ea 1).toNat (hi v), ?_, fun a => ?_,
      fun hw => wf_write (wf_write hw _ _) _ _⟩
    · show (write8 s k (ea 0) (lo v) >>= fun s => write8 s k (ea 1) (hi v)) = _
      rw [write8_of_writable (h 0 (by decide))]
      exact write8_of_writable (s := { s with mem := s.mem.set (ea 0).toNat (lo v) }) (h 1 (by decide)) k (hi v)
    · rw [get_write, get_write]
      by_cases h0 : a = ea 0
      · simp [h0, hd, lo]
      · by_cases h1 : a = ea 1 <;> simp [h0, h1, hi, Ne.symm hd]

/-- All a store to devices does. -/
theorem storeW_of_onDevice {s : State} {k : Access} {ea : EA} {w : Width} (h : s.OnDevice k ea w.bytes)
    (v : BitVec w.bits) : storeW s k ea w v = .ok { s with deviceWrites := writesOf ea w v ++ s.deviceWrites } := by
  cases w with
  | w8 => exact write8_of_takenByDevice (h 0 (by decide)) v
  | w16 =>
    show (write8 s k (ea 0) (lo v) >>= fun s => write8 s k (ea 1) (hi v)) = _
    rw [write8_of_takenByDevice (h 0 (by decide))]
    exact write8_of_takenByDevice (s := { s with deviceWrites := ((ea 0).toNat, lo v) :: s.deviceWrites })
      (h 1 (by decide)) (hi v)

/-- Two byte writes in a row change the memory and the record of device writes alone. -/
theorem write8_twice_keeps {s t : State} {k : Access} {a b : Addr} {u v : Byte}
    (h : (write8 s k a u >>= fun s => write8 s k b v) = .ok t) :
    ∃ m l, t = { s with mem := m, deviceWrites := l } ∧ (s.mem.wf = true → m.wf = true) := by
  cases h0 : write8 s k a u with
  | error e => simp [h0, bind, Except.bind] at h
  | ok r =>
    simp only [h0, bind, Except.bind] at h
    obtain ⟨m, l, rfl, hwf⟩ := write8_keeps h0
    obtain ⟨m', l', rfl, hwf'⟩ := write8_keeps h
    exact ⟨m', l', rfl, fun hw => hwf' (hwf hw)⟩

/-- All a store can change. -/
theorem storeW_keeps {s t : State} {k : Access} {ea : EA} {w : Width} {v : BitVec w.bits} (h : storeW s k ea w v = .ok t) :
    ∃ m l, t = { s with mem := m, deviceWrites := l } ∧ (s.mem.wf = true → m.wf = true) := by
  cases w with
  | w8 => exact write8_keeps h
  | w16 => exact write8_twice_keeps h

/-- All a write-back does, when its bytes are RAM and lie apart. -/
theorem writeBackW_of_canWrite {s : State} {ea : EA} {w : Width} (h : s.CanWrite ea w.bytes) (hd : ea 0 ≠ ea 1)
    (v : BitVec w.bits) :
    ∃ m, writeBackW s ea w v = .ok { s with mem := m } ∧ StoredAt s.mem m ea w v ∧ (s.mem.wf = true → m.wf = true) := by
  cases w with
  | w8 =>
    refine ⟨_, write8_of_writable (h 0 (by decide)) _ v, fun a => ?_, fun hw => wf_write hw _ _⟩
    rw [get_write]
    by_cases ha : a = ea 0 <;> simp [ha]
  | w16 =>
    refine ⟨(s.mem.set (ea 1).toNat (hi v)).set (ea 0).toNat (lo v), ?_, fun a => ?_,
      fun hw => wf_write (wf_write hw _ _) _ _⟩
    · show (write8 s .exposed (ea 1) (hi v) >>= fun s => write8 s .exposed (ea 0) (lo v)) = _
      rw [write8_of_writable (h 1 (by decide))]
      exact write8_of_writable (s := { s with mem := s.mem.set (ea 1).toNat (hi v) }) (h 0 (by decide)) _ (lo v)
    · rw [get_write, get_write]
      by_cases h0 : a = ea 0
      · simp [h0, lo]
      · by_cases h1 : a = ea 1 <;> simp [h0, h1, hi, Ne.symm hd]

/-- All a write-back to devices does: the high byte first. -/
theorem writeBackW_of_onDevice {s : State} {ea : EA} {w : Width} (h : s.OnDevice .exposed ea w.bytes) (v : BitVec w.bits) :
    writeBackW s ea w v = .ok { s with deviceWrites := (writesOf ea w v).reverse ++ s.deviceWrites } := by
  cases w with
  | w8 => exact write8_of_takenByDevice (h 0 (by decide)) v
  | w16 =>
    show (write8 s .exposed (ea 1) (hi v) >>= fun s => write8 s .exposed (ea 0) (lo v)) = _
    rw [write8_of_takenByDevice (h 1 (by decide))]
    exact write8_of_takenByDevice (s := { s with deviceWrites := ((ea 1).toNat, hi v) :: s.deviceWrites })
      (h 0 (by decide)) (lo v)

/-- All a write-back can change. -/
theorem writeBackW_keeps {s t : State} {ea : EA} {w : Width} {v : BitVec w.bits} (h : writeBackW s ea w v = .ok t) :
    ∃ m l, t = { s with mem := m, deviceWrites := l } ∧ (s.mem.wf = true → m.wf = true) := by
  cases w with
  | w8 => exact write8_keeps h
  | w16 => exact write8_twice_keeps h

/-! ### The stack -/

theorem State.spDown_spDown (s : State) (k : Nat) :
    State.spDown { s with s := s.spDown 1 } k = s.spDown (k + 1) := by
  unfold State.spDown
  split
  · simp only [hi_word, lo_word]
    congr 1
    apply BitVec.eq_of_toNat_eq
    simp only [BitVec.toNat_sub, BitVec.toNat_ofNat]
    omega
  · apply BitVec.eq_of_toNat_eq
    simp only [BitVec.toNat_sub, BitVec.toNat_ofNat]
    omega

/-- Going up `j` and then `k` from a state whose S is that. -/
theorem State.spUp_add (s u : State) (j k : Nat) (he : u.e = s.e) (hs : u.s = s.spUp j) : u.spUp k = s.spUp (j + k) := by
  simp only [State.spUp, he, hs]
  split
  · simp only [hi_word, lo_word]
    congr 1
    apply BitVec.eq_of_toNat_eq
    simp only [BitVec.toNat_add, BitVec.toNat_ofNat]
    omega
  · apply BitVec.eq_of_toNat_eq
    simp only [BitVec.toNat_add, BitVec.toNat_ofNat]
    omega

theorem State.spUp_spUp (s : State) (k : Nat) :
    State.spUp { s with s := s.spUp 1 } k = s.spUp (k + 1) := (s.spUp_add { s with s := s.spUp 1 } 1 k rfl rfl).trans (congrArg s.spUp (Nat.add_comm 1 k))

/-- Going down `n` and then up `k ≤ n`, from a state whose S is that, is going down `n - k`. -/
theorem State.spUp_of_spDown (s u : State) {n k : Nat} (he : u.e = s.e) (hs : u.s = s.spDown n) (h : k ≤ n) :
    u.spUp k = s.spDown (n - k) := by
  simp only [State.spUp, State.spDown, he] at hs ⊢
  rw [hs]
  split
  · simp only [hi_word, lo_word]
    congr 1
    apply BitVec.eq_of_toNat_eq
    have := (lo s.s).isLt
    simp only [BitVec.toNat_add, BitVec.toNat_sub, BitVec.toNat_ofNat]
    omega
  · apply BitVec.eq_of_toNat_eq
    have := s.s.isLt
    simp only [BitVec.toNat_add, BitVec.toNat_sub, BitVec.toNat_ofNat]
    omega

@[simp] theorem State.spDown_zero (s : State) : s.spDown 0 = s.s := by
  unfold State.spDown
  split <;> simp

/-- Slots less than 256 pushes apart differ. -/
theorem State.slot_ne (s : State) {j k : Nat} (hjk : j ≠ k) (hj : j < 256) (hk : k < 256) : s.slot j ≠ s.slot k := by
  intro h
  have h := (addr_inj h).2
  unfold State.spDown at h
  split at h
  · have h := congrArg BitVec.toNat (word_inj h).2
    have := (lo s.s).isLt
    simp only [BitVec.toNat_sub, BitVec.toNat_ofNat] at h
    omega
  · have h := congrArg BitVec.toNat h
    have := s.s.isLt
    simp only [BitVec.toNat_sub, BitVec.toNat_ofNat] at h
    omega

/-- `n` bytes pushed in order. -/
def pushAll (s : State) : List Byte → Acc State
  | [] => .ok s
  | b :: bs => do
    let s ← push8 s b
    pushAll s bs

theorem pushAll_append (s : State) (xs ys : List Byte) :
    pushAll s (xs ++ ys) = (pushAll s xs >>= fun t => pushAll t ys) := by
  induction xs generalizing s with
  | nil => rfl
  | cons b bs ih =>
    simp only [List.cons_append, pushAll]
    cases push8 s b with
    | error e => rfl
    | ok t => exact ih t

theorem push8_eq_pushAll (s : State) (v : Byte) : push8 s v = pushAll s [v] := by
  simp only [pushAll]
  cases push8 s v <;> rfl

theorem push16_eq_pushAll (s : State) (v : Word) : push16 s v = pushAll s [hi v, lo v] := by
  simp only [push16, pushAll]
  cases push8 s (hi v) with
  | error e => rfl
  | ok t =>
    simp only [bind, Except.bind]
    cases push8 t (lo v) <;> rfl

theorem pushW_eq_pushAll (s : State) (w : Width) (v : BitVec w.bits) : pushW s w v = pushAll s (highFirst w v) := by
  cases w with
  | w8 => exact push8_eq_pushAll s v
  | w16 => exact push16_eq_pushAll s v

theorem afterPush_congr {s t : State} (a : Addr) (hs : ∀ j, s.slot j = t.slot (j + 1)) (hb : s.byteAt a = t.byteAt a) :
    ∀ (bs : List Byte) (k : Nat), s.afterPush a k bs = t.afterPush a (k + 1) bs
  | [], _ => hb
  | b :: bs, k => by
    simp only [State.afterPush, hs k, afterPush_congr a hs hb bs (k + 1)]

theorem afterPush_miss {s : State} (a : Addr) :
    ∀ (bs : List Byte) (k : Nat), (∀ j, k ≤ j → j < k + bs.length → a ≠ s.slot j) → s.afterPush a k bs = s.byteAt a
  | [], _, _ => rfl
  | b :: bs, k, h => by
    rw [State.afterPush, if_neg (h k (by omega) (by simp)),
      afterPush_miss a bs (k + 1) fun j h1 h2 => h j (by omega) (by simp only [List.length_cons]; omega)]

/-- What a push leaves depends on S, E and the memory alone. -/
theorem PushedAt.congr {s t : State} {m : Memory} {bs : List Byte} (h : PushedAt s m bs) (hs : s.s = t.s) (he : s.e = t.e)
    (hm : s.mem = t.mem) : PushedAt t m bs := by
  have e : ∀ (a : Addr) (bs : List Byte) (k : Nat), s.afterPush a k bs = t.afterPush a k bs := by
    intro a bs
    have hslot : ∀ k, s.slot k = t.slot k := fun k => by unfold State.slot State.spDown; rw [hs, he]
    induction bs with
    | nil => intro k; exact congrArg (fun m => Memory.get m a.toNat) hm
    | cons b bs ih => intro k; simp only [State.afterPush, hslot, ih]
  exact fun a => (h a).trans (e a bs 0)

/-- What was pushed `i`-th stands in its slot. -/
theorem afterPush_slot {s : State} :
    ∀ (bs : List Byte) (k i : Nat) (_ : k + bs.length ≤ 256) (h : i < bs.length), s.afterPush (s.slot (k + i)) k bs = bs[i]
  | b :: bs, k, 0, _, _ => by simp [State.afterPush]
  | b :: bs, k, i + 1, hl, h => by
    simp only [List.length_cons] at hl h
    rw [State.afterPush, if_neg (s.slot_ne (by omega) (by omega) (by omega)),
      show k + (i + 1) = (k + 1) + i by omega, afterPush_slot bs (k + 1) i (by omega) (by omega)]
    rfl

/-- After `n` pushes the next pull reads the last slot written, and so on back. -/
theorem pullSlot_of_pushed {s t : State} {n j : Nat} (hs : t.s = s.spDown n) (he : t.e = s.e) (hj : j < n) :
    t.pullSlot j = s.slot (n - 1 - j) := by
  unfold State.pullSlot State.slot
  rw [s.spUp_of_spDown t he hs (by omega), show n - (j + 1) = n - 1 - j by omega]

/-- The pulls after a push find the pushed bytes, the last pushed first (R68). -/
theorem byteAt_pullSlot {s t : State} {bs : List Byte} (h : PushedAt s t.mem bs) (hl : bs.length ≤ 256)
    (hs : t.s = s.spDown bs.length) (he : t.e = s.e) {j : Nat} (hj : j < bs.length) :
    t.byteAt (t.pullSlot j) = bs[bs.length - 1 - j] := by
  rw [pullSlot_of_pushed hs he hj]
  show t.mem.get _ = _
  rw [h]
  have := afterPush_slot (s := s) bs 0 (bs.length - 1 - j) (by omega) (by omega)
  rwa [Nat.zero_add] at this

/-- All a sequence of pushes does, when its slots can be written. -/
theorem pushAll_of_canWrite (bs : List Byte) :
    ∀ (s : State), bs.length ≤ 256 → s.CanWrite s.slot bs.length →
    ∃ m, pushAll s bs = .ok { s with mem := m, s := s.spDown bs.length } ∧ PushedAt s m bs ∧
      (s.mem.wf = true → m.wf = true) := by
  induction bs with
  | nil => intro s _ _; exact ⟨s.mem, by simp [pushAll], fun a => rfl, id⟩
  | cons b bs ih =>
    intro s hl hw
    simp only [List.length_cons] at hl
    have h0 : s.Writable (addr 0 s.s) := by simpa [State.slot] using hw 0 (by simp)
    have e : push8 s b = .ok { s with mem := s.mem.set (addr 0 s.s).toNat b, s := s.spDown 1 } := by
      unfold push8
      rw [write8_of_writable h0]
      rfl
    have hslot : ∀ j, State.slot { s with mem := s.mem.set (addr 0 s.s).toNat b, s := s.spDown 1 } j = s.slot (j + 1) :=
      fun j => congrArg (addr 0) (s.spDown_spDown j)
    obtain ⟨m, e', hp, hwf⟩ := ih { s with mem := s.mem.set (addr 0 s.s).toNat b, s := s.spDown 1 } (by omega)
      (fun k hk => by rw [hslot k]; exact hw (k + 1) (by simp only [List.length_cons]; omega))
    refine ⟨m, ?_, fun a => ?_, fun h => hwf (wf_write h _ _)⟩
    · simp only [pushAll, e, bind, Except.bind]
      rw [e']
      congr 2
      exact s.spDown_spDown bs.length
    · rw [hp a]
      have hs0 : s.slot 0 = addr 0 s.s := by simp [State.slot]
      by_cases ha : a = s.slot 0
      · rw [State.afterPush, if_pos ha]
        rw [afterPush_miss a bs 0 fun j h1 h2 => by
          rw [hslot j, ha]; exact s.slot_ne (by omega) (by omega) (by omega)]
        show (s.mem.set _ b).get a.toNat = b
        rw [get_write, ha, hs0, if_pos rfl]
      · rw [State.afterPush, if_neg ha]
        refine afterPush_congr a hslot ?_ bs 0
        show (s.mem.set _ b).get a.toNat = s.mem.get a.toNat
        rw [get_write, if_neg (hs0 ▸ ha)]

/-- All a push can change. -/
theorem push8_keeps {v : Byte} {s t : State} (h : push8 s v = .ok t) :
    ∃ m l, t = { s with mem := m, deviceWrites := l, s := s.spDown 1 } ∧ (s.mem.wf = true → m.wf = true) := by
  unfold push8 at h
  cases h0 : write8 s .stack (addr 0 s.s) v with
  | error e => rw [h0] at h; cases h
  | ok u =>
    obtain ⟨m, l, rfl, hwf⟩ := write8_keeps h0
    rw [h0] at h
    exact ⟨m, l, (Except.ok.inj h).symm, hwf⟩

/-- All a sequence of pushes can change. -/
theorem pushAll_keeps : ∀ {bs : List Byte} {s t : State}, pushAll s bs = .ok t →
    ∃ m l, t = { s with mem := m, deviceWrites := l, s := s.spDown bs.length } ∧ (s.mem.wf = true → m.wf = true)
  | [], s, t, h => ⟨s.mem, s.deviceWrites, by simp [← Except.ok.inj h], id⟩
  | b :: bs, s, t, h => by
    simp only [pushAll] at h
    cases h0 : push8 s b with
    | error e => simp [h0, bind, Except.bind] at h
    | ok u =>
      simp only [h0, bind, Except.bind] at h
      obtain ⟨m, l, rfl, hwf⟩ := push8_keeps h0
      obtain ⟨m', l', rfl, hwf'⟩ := pushAll_keeps h
      refine ⟨m', l', ?_, fun hh => hwf' (hwf hh)⟩
      exact congrArg (fun p : Word => { s with mem := m', deviceWrites := l', s := p }) (s.spDown_spDown bs.length)

theorem pull8_of_canRead {s : State} (h : s.CanRead .stack s.pullSlot 1) :
    pull8 s = .ok (s.seen .stack (s.pullSlot 0), { s with s := s.spUp 1 }) := by
  unfold pull8
  have := read8_of_readable (s := { s with s := s.spUp 1 }) (h 0 (by decide))
  simp only [State.pullSlot] at this
  simp only [bind, Except.bind]
  rw [this]
  rfl

theorem pull8_ok {s t : State} {v : Byte} (h : pull8 s = .ok (v, t)) :
    s.CanRead .stack s.pullSlot 1 ∧ v = s.seen .stack (s.pullSlot 0) ∧ t = { s with s := s.spUp 1 } := by
  unfold pull8 at h
  simp only [bind, Except.bind] at h
  cases h0 : read8 { s with s := s.spUp 1 } .stack (addr 0 (s.spUp 1)) with
  | error e => rw [h0] at h; cases h
  | ok u =>
    rw [h0] at h
    obtain ⟨r, rfl⟩ := read8_ok h0
    have h := Except.ok.inj h
    refine ⟨fun k hk => ?_, (congrArg Prod.fst h).symm, (congrArg Prod.snd h).symm⟩
    match k, hk with
    | 0, _ => exact r

theorem State.pullSlot_succ (s : State) (k : Nat) :
    State.pullSlot { s with s := s.spUp 1 } k = s.pullSlot (k + 1) := congrArg (addr 0) (s.spUp_spUp (k + 1))

theorem pull16_of_canRead {s : State} (h : s.CanRead .stack s.pullSlot 2) :
    pull16 s = .ok (s.valueAt .stack s.pullSlot .w16, { s with s := s.spUp 2 }) := by
  unfold pull16
  rw [pull8_of_canRead fun k hk => h k (by omega)]
  simp only [bind, Except.bind]
  rw [pull8_of_canRead (s := { s with s := s.spUp 1 }) (fun k hk => by
    rw [s.pullSlot_succ k]; exact h (k + 1) (by omega))]
  simp only [s.pullSlot_succ, s.spUp_spUp]
  rfl

theorem pull16_ok {s t : State} {v : Word} (h : pull16 s = .ok (v, t)) :
    s.CanRead .stack s.pullSlot 2 ∧ v = s.valueAt .stack s.pullSlot .w16 ∧ t = { s with s := s.spUp 2 } := by
  unfold pull16 at h
  cases h0 : pull8 s with
  | error e => simp [h0, bind, Except.bind] at h
  | ok q =>
    obtain ⟨l, u⟩ := q
    obtain ⟨r0, rfl, rfl⟩ := pull8_ok h0
    simp only [h0, bind, Except.bind] at h
    cases h1 : pull8 { s with s := s.spUp 1 } with
    | error e => simp [h1] at h
    | ok q =>
      obtain ⟨b, u⟩ := q
      obtain ⟨r1, rfl, rfl⟩ := pull8_ok h1
      simp only [h1, pure, Except.pure, Except.ok.injEq, Prod.mk.injEq] at h
      obtain ⟨rfl, rfl⟩ := h
      refine ⟨fun k hk => ?_, ?_, ?_⟩
      · match k, hk with
        | 0, _ => exact r0 0 (by decide)
        | 1, _ => rw [← s.pullSlot_succ]; exact r1 0 (by decide)
      · rw [s.pullSlot_succ 0]; rfl
      · exact congrArg (fun p : Word => { s with s := p }) (s.spUp_spUp 1)

/-- The value pulled at width `w`. -/
theorem pullW_of_canRead {s : State} {w : Width} (h : s.CanRead .stack s.pullSlot w.bytes) :
    pullW s w = .ok (s.valueAt .stack s.pullSlot w, { s with s := s.spUp w.bytes }) := by
  cases w with
  | w8 => exact pull8_of_canRead h
  | w16 => exact pull16_of_canRead h

theorem pullW_ok {s t : State} {w : Width} {v : BitVec w.bits} (h : pullW s w = .ok (v, t)) :
    s.CanRead .stack s.pullSlot w.bytes ∧ v = s.valueAt .stack s.pullSlot w ∧ t = { s with s := s.spUp w.bytes } := by
  cases w with
  | w8 => exact pull8_ok h
  | w16 => exact pull16_ok h

/-! ### The reset sequence -/

theorem get_putRam_other {map : List Region} {a : Addr} (h : kindAt map a.toNat ≠ some .ram) (cells : List (Addr × Byte))
    (m : Memory) : (putRam map cells m).get a.toNat = m.get a.toNat := by
  induction cells generalizing m with
  | nil => rfl
  | cons c cells ih =>
    rw [putRam, ih]
    split
    · next hc => exact Memory.get_set_other m c.2 fun e => h (e ▸ hc)
    · rfl

theorem get_putRam_congr (map : List Region) {a : Addr} (cells : List (Addr × Byte)) {m m' : Memory}
    (h : m.get a.toNat = m'.get a.toNat) : (putRam map cells m).get a.toNat = (putRam map cells m').get a.toNat := by
  induction cells generalizing m m' with
  | nil => exact h
  | cons c cells ih =>
    refine ih ?_
    split
    · rw [Memory.get_set, Memory.get_set, h]
    · exact h

theorem wf_putRam (map : List Region) (cells : List (Addr × Byte)) {m : Memory} (h : m.wf = true) :
    (putRam map cells m).wf = true := by
  induction cells generalizing m with
  | nil => exact h
  | cons c cells ih =>
    refine ih ?_
    split
    · exact Memory.wf_set c.2 h c.1.isLt
    · exact h

/-- Outside RAM a redraw changes no byte (R450). -/
theorem get_redrawRam_other {map : List Region} {a : Addr} (h : kindAt map a.toNat ≠ some .ram) (cells : List (Addr × Byte))
    (m : Memory) : (redrawRam map cells m).get a.toNat = m.get a.toNat := by
  rw [redrawRam, get_putRam_other h, Memory.get_filter fun k => kindAt map k != some .ram]
  simp [h]

/-- In RAM what a redraw leaves does not depend on what was there (R5, R450). -/
theorem get_redrawRam_ram {map : List Region} {a : Addr} (h : kindAt map a.toNat = some .ram) (cells : List (Addr × Byte))
    (m m' : Memory) : (redrawRam map cells m).get a.toNat = (redrawRam map cells m').get a.toNat := by
  refine get_putRam_congr map cells ?_
  rw [Memory.get_filter fun k => kindAt map k != some .ram, Memory.get_filter fun k => kindAt map k != some .ram]
  simp [h]

/-- A redraw keeps the canonical form. -/
theorem wf_redrawRam (map : List Region) (cells : List (Addr × Byte)) {m : Memory} (h : m.wf = true) :
    (redrawRam map cells m).wf = true := wf_putRam map cells (Memory.wfFrom_filter _ h)

end Sys2Proof.Machine
end

