-- ==== Sys2Proof/Laws/Fetch.lean ====
section
/-!
SUPPORT. What a fetch reads: the bytes of the instruction at PBR:PC, one after another.
-/
namespace Sys2Proof.Machine

theorem readBytes_of_canRead {s : State} {ea : EA} :
    ∀ (n k : Nat), (∀ j, k ≤ j → j < k + n → s.Readable .fetch (ea j)) →
    readBytes s ea k n = .ok ((List.range' k n).map fun j => s.seen .fetch (ea j))
  | 0, _, _ => rfl
  | n + 1, k, h => by
    rw [readBytes, read8_of_readable (h k (by omega) (by omega))]
    simp only [bind, Except.bind]
    rw [readBytes_of_canRead n (k + 1) fun j h1 h2 => h j (by omega) (by omega), List.range'_succ]
    rfl

/-- The length of an instruction is never 0: its opcode byte counts. -/
theorem lengthOf_pos (m x : Bool) (op : Byte) : 0 < lengthOf m x op := by
  unfold lengthOf
  split <;> omega

/-- All that a fetch reads, when the instruction's bytes can be read (R104). -/
theorem fetchBytes_of_canRead {s : State}
    (h : s.CanRead .fetch s.fetchAddr (lengthOf s.flagM s.flagX (s.seen .fetch (s.fetchAddr 0)))) :
    fetchBytes s = .ok (s.codeBytes (lengthOf s.flagM s.flagX (s.seen .fetch (s.fetchAddr 0)))) := by
  have hp := lengthOf_pos s.flagM s.flagX (s.seen .fetch (s.fetchAddr 0))
  unfold fetchBytes
  rw [read8_of_readable (h 0 hp)]
  simp only [bind, Except.bind]
  rw [readBytes_of_canRead _ 1 fun j h1 h2 => h j (by omega)]
  generalize lengthOf s.flagM s.flagX (s.seen .fetch (s.fetchAddr 0)) = n at hp
  obtain ⟨n, rfl⟩ : ∃ k, n = k + 1 := ⟨n - 1, by omega⟩
  simp only [State.codeBytes, List.range_eq_range', List.range'_succ, pure, Except.pure]
  rfl

/-- The instruction a fetch answers. -/
theorem fetch_of_decode {s : State} {i : Instr} {rest : List Byte}
    (h : s.CanRead .fetch s.fetchAddr (lengthOf s.flagM s.flagX (s.seen .fetch (s.fetchAddr 0))))
    (hd : decode s.flagM s.flagX (s.codeBytes (lengthOf s.flagM s.flagX (s.seen .fetch (s.fetchAddr 0)))) = .ok (i, rest)) :
    fetch s = .ok i := by
  unfold fetch
  rw [fetchBytes_of_canRead h]
  simp only [bind, Except.bind]
  rw [hd]
  rfl

end Sys2Proof.Machine
end

