-- ==== Sys2Proof/Laws/Operands.lean ====
section
/-!
SUPPORT. One lemma per operand form of Machine/Operands.lean: where its bytes lie, as numbers; that the bytes of one operand
lie apart; what reading it gives; and that none of this depends on PC or on the status flags an instruction writes before it.
-/
namespace Sys2Proof.Machine

/-! ### Address functions as numbers -/

theorem linear_toNat (a : Addr) (k : Nat) : (linear a k).toNat = (a.toNat + k) % 2 ^ 24 := by
  simp [linear, BitVec.toNat_add]

theorem bankAddr_toNat (b : Byte) (o : Word) (k : Nat) :
    (bankAddr b o k).toNat = b.toNat * 65536 + (o.toNat + k) % 2 ^ 16 := by
  simp [bankAddr, addr_toNat, BitVec.toNat_add]

theorem dataAddr_toNat (s : State) (o : Word) : (s.dataAddr o).toNat = s.dbr.toNat * 65536 + o.toNat :=
  addr_toNat _ _

theorem indexed_toNat (a : Addr) (i : Word) (k : Nat) : (indexed a i k).toNat = (a.toNat + i.toNat + k) % 2 ^ 24 := by
  have := i.isLt
  rw [indexed, linear_toNat, BitVec.toNat_add, BitVec.toNat_setWidth, Nat.mod_eq_of_lt (a := i.toNat) (by omega)]
  omega

theorem dpn_toNat (s : State) (o k : Nat) : (dpn s o k).toNat = (s.d.toNat + o + k) % 2 ^ 16 := by
  rw [dpn, bankAddr_toNat, BitVec.toNat_add, BitVec.toNat_ofNat, show (0 : Byte).toNat = 0 from rfl]
  omega

theorem dpw_toNat (s : State) (o k : Nat) :
    (dpw s o k).toNat =
      if s.e = true ∧ lo s.d = 0 then (hi s.d).toNat * 256 + (o + k) % 256 else (s.d.toNat + o + k) % 2 ^ 16 := by
  by_cases h : s.e = true ∧ lo s.d = 0
  · rw [if_pos h, dpw, if_pos (by simp [h, emuDpPageWrap])]
    simp only [addr_toNat, word_toNat, BitVec.toNat_ofNat, show (0 : Byte).toNat = 0 from rfl]
    omega
  · rw [if_neg h, dpw, if_neg, dpn_toNat]
    simpa [emuDpPageWrap] using h

/-! ### Two bytes of one operand lie apart -/

theorem linear_ne (a : Addr) : linear a 0 ≠ linear a 1 := by
  intro h
  have h := congrArg BitVec.toNat h
  rw [linear_toNat, linear_toNat] at h
  omega

theorem bankAddr_ne (b : Byte) (o : Word) : bankAddr b o 0 ≠ bankAddr b o 1 := by
  intro h
  have h := congrArg BitVec.toNat h
  rw [bankAddr_toNat, bankAddr_toNat] at h
  omega

theorem dpw_ne (s : State) (o : Nat) : dpw s o 0 ≠ dpw s o 1 := by
  intro h
  have h := congrArg BitVec.toNat h
  rw [dpw_toNat, dpw_toNat] at h
  split at h <;> omega

/-- A bind that answers has an answer of its first part. -/
theorem bind_ok {α β : Type} {x : Acc α} {f : α → Acc β} {b : β} (h : (x >>= f) = .ok b) :
    ∃ a, x = .ok a ∧ f a = .ok b := by
  cases x with
  | error e => cases h
  | ok a => exact ⟨a, rfl, h⟩

/-- A bind that stops does so in its first part, or in its second. -/
theorem bind_error {α β : Type} {x : Acc α} {f : α → Acc β} {e : Refusal} (h : (x >>= f) = .error e) :
    x = .error e ∨ ∃ a, x = .ok a ∧ f a = .error e := by
  cases x with
  | error e' => exact .inl (congrArg Except.error (Except.error.inj h))
  | ok a => exact .inr ⟨a, rfl, h⟩

/-- The first two bytes of a memory operand lie at different addresses. -/
theorem MemMode.ea_ne {s : State} {m : MemMode} {ea : EA} (h : m.ea s = .ok ea) : ea 0 ≠ ea 1 := by
  cases m <;> simp only [MemMode.ea] at h
  case abs | absX | absY | long | longX =>
    rw [← Except.ok.inj h]; exact linear_ne _
  case dp | dpX | dpY =>
    rw [← Except.ok.inj h]; exact dpw_ne _ _
  case sr =>
    rw [← Except.ok.inj h]; exact bankAddr_ne _ _
  all_goals
    obtain ⟨ptr, -, h⟩ := bind_ok h
    rw [← Except.ok.inj h]; exact linear_ne _

/-! ### The indirect modes, when their pointer can be read -/

theorem MemMode.ea_dpInd {s : State} {o : Byte} (h : s.CanRead .pointer (dpw s o.toNat) 2) :
    MemMode.ea s (.dpInd o) = .ok (linear (s.dataAddr (s.valueAt .pointer (dpw s o.toNat) .w16))) := by
  rw [MemMode.ea, read16_of_canRead h]
  rfl

theorem MemMode.ea_dpXInd {s : State} {o : Byte} (h : s.CanRead .pointer (dpw s (o.toNat + s.x.toNat)) 2) :
    MemMode.ea s (.dpXInd o) = .ok (linear (s.dataAddr (s.valueAt .pointer (dpw s (o.toNat + s.x.toNat)) .w16))) := by
  rw [MemMode.ea, read16_of_canRead h]
  rfl

theorem MemMode.ea_dpIndY {s : State} {o : Byte} (h : s.CanRead .pointer (dpw s o.toNat) 2) :
    MemMode.ea s (.dpIndY o) = .ok (indexed (s.dataAddr (s.valueAt .pointer (dpw s o.toNat) .w16)) s.y) := by
  rw [MemMode.ea, read16_of_canRead h]
  rfl

theorem MemMode.ea_dpIndLong {s : State} {o : Byte} (h : s.CanRead .pointer (dpn s o.toNat) 3) :
    MemMode.ea s (.dpIndLong o) = .ok (linear (s.pointerAt (dpn s o.toNat))) := by
  rw [MemMode.ea, read24_of_canRead h]
  rfl

theorem MemMode.ea_dpIndLongY {s : State} {o : Byte} (h : s.CanRead .pointer (dpn s o.toNat) 3) :
    MemMode.ea s (.dpIndLongY o) = .ok (indexed (s.pointerAt (dpn s o.toNat)) s.y) := by
  rw [MemMode.ea, read24_of_canRead h]
  rfl

theorem MemMode.ea_srIndY {s : State} {o : Byte} (h : s.CanRead .pointer (bankAddr 0 (s.s + o.setWidth 16)) 2) :
    MemMode.ea s (.srIndY o) = .ok (indexed (s.dataAddr (s.valueAt .pointer (bankAddr 0 (s.s + o.setWidth 16)) .w16)) s.y) := by
  rw [MemMode.ea, read16_of_canRead h]
  rfl

/-! ### Reading an operand -/

/-- The operand of a reading instruction, when it is there. -/
theorem Source.load_of_operandIs {s : State} {w : Width} {o : Source} {v : BitVec w.bits} (h : OperandIs s w o v) :
    o.load s w = .ok v := by
  cases o with
  | imm i =>
    cases w <;> simp only [OperandIs] at h <;> subst h <;> simp [Source.load, immAt, pure, Except.pure]
  | mem m =>
    have hm : ∃ ea, m.ea s = .ok ea ∧ s.CanRead m.access ea w.bytes ∧ v = s.valueAt m.access ea w := by cases w <;> exact h
    obtain ⟨ea, he, hr, hv⟩ := hm
    show (m.ea s >>= fun ea => readW s m.access ea w) = _
    rw [he, hv]
    exact readW_of_canRead hr

/-- The pointer and the operand of an instruction depend on these fields alone. -/
theorem MemMode.ea_congr {s t : State} (hm : s.mem = t.mem) (hk : s.memMap = t.memMap)
    (hl : s.deviceWrites = t.deviceWrites) (hn : s.draw = t.draw) (hx : s.x = t.x) (hy : s.y = t.y) (hs : s.s = t.s) (hd : s.d = t.d) (hb : s.dbr = t.dbr) (he : s.e = t.e) (m : MemMode) : m.ea s = m.ea t := by
  have r : ∀ k a, read8 s k a = read8 t k a := read8_congr hm hk hl hn
  cases m <;>
    simp only [MemMode.ea, read24, read16, dpw, dpn, State.dataAddr, r, hx, hy, hs, hd, hb, he]

/-- The answer of an address computation depends on reads alone: with readable RAM it is there. -/
theorem MemMode.ea_of_allRam {s : State} (h : s.AllRam) (m : MemMode) : ∃ ea, m.ea s = .ok ea := by
  have r16 : ∀ ea, read16 s .pointer ea = .ok (s.valueAt .pointer ea .w16) :=
    fun ea => read16_of_canRead fun k _ => h.readable _
  have r24 : ∀ ea, read24 s .pointer ea = .ok (s.pointerAt ea) := fun ea => read24_of_canRead fun k _ => h.readable _
  cases m <;> simp only [MemMode.ea, r16, r24, bind, Except.bind, pure, Except.pure] <;> exact ⟨_, rfl⟩

/-- The lengths agree: the instruction's bytes are its opcode and its operand bytes (R101). -/
theorem MemMode.length_encoded (m : MemMode) : m.encoded.length = m.bytes := by cases m <;> rfl

theorem Source.length_encoded (o : Source) : 1 + o.encoded.length = o.length := by
  cases o with
  | imm v => cases v <;> rfl
  | mem m => simp [Source.encoded, Source.length, MemMode.length_encoded]

theorem Target.length_encoded (o : Target) : 1 + o.encoded.length = o.length := by
  cases o with
  | acc => rfl
  | mem m => simp [Target.encoded, Target.length, MemMode.length_encoded]

end Sys2Proof.Machine
end

