-- ==== Sys2Proof/Laws/Status.lean ====
section
/-!
SUPPORT. What the register and status updates of Machine/Ops.lean and Machine/Flags.lean leave, in the vocabulary of
Claims.lean.
-/
namespace Sys2Proof.Machine

theorem StatusIs.refl (p : Byte) : StatusIs p p [] := fun _ _ => rfl

/-- One more bit written, in front of what was written before. -/
theorem StatusIs.setBit {old new : Byte} {ws : List (Nat × Bool)} (h : StatusIs old new ws) (i : Nat) (hi : i < 8)
    (b : Bool) : StatusIs old (setBit new i b) ((i, b) :: ws) := by
  intro k hk
  rw [getLsbD_setBit new i k b hi, List.lookup_cons]
  by_cases e : i = k
  · subst e; simp
  · have : (k == i) = false := by simpa using Ne.symm e
    simp only [if_neg e, this]
    exact h k hk

/-- Only what the list says of each bit counts, not its order. -/
theorem StatusIs.congr {old new : Byte} {ws ws' : List (Nat × Bool)} (h : StatusIs old new ws)
    (e : ∀ k, k < 8 → ws.lookup k = ws'.lookup k) : StatusIs old new ws' := fun k hk => by rw [← e k hk]; exact h k hk

theorem lookup_swap {i j : Nat} (a b : Bool) (ws : List (Nat × Bool)) (hij : i ≠ j) (k : Nat) :
    List.lookup k ((i, a) :: (j, b) :: ws) = List.lookup k ((j, b) :: (i, a) :: ws) := by
  simp only [List.lookup_cons]
  by_cases hi : k = i
  · subst hi
    have : (k == j) = false := by simpa using hij
    simp [this]
  · have e : (k == i) = false := by simpa using hi
    simp [e]

theorem nz_eq {w : Nat} (v : BitVec w) : nz v = [(7, v.msb), (1, v == 0)] := by
  simp [nz, BitVec.msb_eq_getLsbD_last]

/-- `SetNZ` after other bits were written. -/
theorem StatusIs.setNZ {old : Byte} {s : State} {ws : List (Nat × Bool)} (h : StatusIs old s.p ws) {w : Nat}
    (v : BitVec w) (hn : ws.lookup 7 = none := by rfl) (hz : ws.lookup 1 = none := by rfl) :
    StatusIs old (s.setNZ v).p (ws ++ nz v) := by
  rw [State.setNZ_p, nz_eq]
  refine ((h.setBit 7 (by decide) v.msb).setBit 1 (by decide) (v == 0)).congr fun k hk => ?_
  rw [List.lookup_append]
  simp only [List.lookup_cons, List.lookup_nil]
  by_cases h1 : k = 1
  · subst h1; simp [hz]
  · by_cases h7 : k = 7
    · subst h7; simp [hn]
    · have e1 : (k == 1) = false := by simpa using h1
      have e7 : (k == 7) = false := by simpa using h7
      simp only [e1, e7]
      cases List.lookup k ws <;> rfl

theorem statusIs_setNZ (s : State) {w : Nat} (v : BitVec w) : StatusIs s.p (s.setNZ v).p (nz v) :=
  (StatusIs.refl s.p).setNZ v

theorem width_of_flagM (s : State) : (s.wA = .w8 ∧ s.flagM = true) ∨ (s.wA = .w16 ∧ s.flagM = false) := by
  unfold State.wA widthOf
  cases s.flagM <;> simp

theorem width_of_flagX (s : State) : (s.wI = .w8 ∧ s.flagX = true) ∨ (s.wI = .w16 ∧ s.flagX = false) := by
  unfold State.wI widthOf
  cases s.flagX <;> simp

/-- What `WriteA` leaves in the accumulator (R40). -/
theorem accIs_writeA (s : State) (v : BitVec s.wA.bits) : AccIs s.c (s.writeA v).c s.wA v := by
  revert v
  rcases width_of_flagM s with ⟨hw, hm⟩ | ⟨hw, hm⟩ <;> rw [hw] <;> intro v <;>
    simp only [State.writeA_c, hm, AccIs, if_true, if_false, Bool.false_eq_true]
  · exact ⟨by rw [show (word (hi s.c) (BitVec.setWidth 8 v)).setWidth 8 = _ from lo_word _ _]; simp, fun _ => by simp⟩
  · exact ⟨by simp, fun h => by cases h⟩

/-- What `WriteX` leaves in X (R40). -/
theorem indexIs_writeX (s : State) (v : BitVec s.wI.bits) : IndexIs (s.writeX v).x s.wI v := by
  revert v
  rcases width_of_flagX s with ⟨hw, hm⟩ | ⟨hw, hm⟩ <;> rw [hw] <;> intro v <;>
    simp only [State.writeX_x, hm, IndexIs, if_true, if_false, Bool.false_eq_true]
  · exact ⟨by rw [show (word 0 (BitVec.setWidth 8 v)).setWidth 8 = _ from lo_word _ _]; simp, fun _ => by simp⟩
  · exact ⟨by simp, fun h => by cases h⟩

/-- What `WriteY` leaves in Y (R40). -/
theorem indexIs_writeY (s : State) (v : BitVec s.wI.bits) : IndexIs (s.writeY v).y s.wI v := by
  revert v
  rcases width_of_flagX s with ⟨hw, hm⟩ | ⟨hw, hm⟩ <;> rw [hw] <;> intro v <;>
    simp only [State.writeY_y, hm, IndexIs, if_true, if_false, Bool.false_eq_true]
  · exact ⟨by rw [show (word 0 (BitVec.setWidth 8 v)).setWidth 8 = _ from lo_word _ _]; simp, fun _ => by simp⟩
  · exact ⟨by simp, fun h => by cases h⟩

/-- What `SetP` leaves (R39). -/
theorem statusWritten_setP (s : State) (v : Byte) :
    StatusWritten s v (s.setP v).p (s.setP v).x (s.setP v).y ∧
    s.setP v = { s with p := (s.setP v).p, x := (s.setP v).x, y := (s.setP v).y } := by
  refine ⟨⟨by simp, ?_, ?_⟩, ?_⟩
  · cases h : s.e <;> simp [h]
  · cases h : s.e <;> simp [h]
  · apply State.ext <;> simp

end Sys2Proof.Machine
end

