-- ==== Sys2Proof/Laws/Interrupts.lean ====
section
/-!
SUPPORT. One lemma each that says all that interrupt entry, return from interrupt and the reset sequence do.
-/
namespace Sys2Proof.Machine

/-- The status byte an event pushes differs from P in bit 4 alone, and only in emulation mode (R412). -/
theorem statusIs_pushedStatus (k : Event) (s : State) :
    StatusIs s.p (pushedStatus k s) (if s.e then [(4, decide (k = .brk ∨ k = .cop))] else []) := by
  unfold pushedStatus
  cases s.e
  · exact StatusIs.refl _
  · have : brkBit k = decide (k = .brk ∨ k = .cop) := by cases k <;> rfl
    rw [this]
    exact (StatusIs.refl _).setBit 4 (by decide) _

/-- The pushes of interrupt entry, as one list of bytes (R411). -/
theorem interrupt_pushes (k : Event) (r : Word) (s : State) :
    interrupt k r s = (pushAll s (frame s r (pushedStatus k s)) >>= fun u =>
      read16 { (u.setI true).setD false with pbr := 0x00 } .vector (vectorEA (vectorOf u.vectors u.e k)) >>= fun target =>
      pure { (u.setI true).setD false with pbr := 0x00, pc := target }) := by
  have ps : ∀ (t : State), t.e = s.e → t.p = s.p → pushedStatus k t = pushedStatus k s := by
    intro t he hp; simp only [pushedStatus, he, hp]
  have keep : ∀ {t u : State} {v : Byte}, push8 t v = .ok u → u.e = t.e ∧ u.p = t.p := by
    intro t u v h; obtain ⟨m, l, rfl, -⟩ := push8_keeps h; exact ⟨rfl, rfl⟩
  have two : ∀ (t : State), t.e = s.e → t.p = s.p →
      (push16 t r >>= fun u => push8 u (pushedStatus k u)) = pushAll t [hi r, lo r, pushedStatus k s] := by
    intro t he hp
    simp only [push16, pushAll]
    cases h1 : push8 t (hi r) with
    | error e => rfl
    | ok u =>
      simp only [bind, Except.bind]
      cases h2 : push8 u (lo r) with
      | error e => rfl
      | ok w =>
        have k1 := keep h1
        have k2 := keep h2
        simp only [ps w (by rw [k2.1, k1.1, he]) (by rw [k2.2, k1.2, hp])]
        cases push8 w (pushedStatus k s) <;> rfl
  have assoc : ∀ (t : State) (f : State → Acc State),
      (push16 t r >>= fun u => push8 u (pushedStatus k u) >>= f) =
        ((push16 t r >>= fun u => push8 u (pushedStatus k u)) >>= f) := by
    intro t f
    cases push16 t r <;> rfl
  unfold interrupt frame
  cases he : s.e
  · simp only [Bool.false_eq_true, if_false, pushAll]
    cases h0 : push8 s s.pbr with
    | error e => rfl
    | ok t =>
      simp only [bind, Except.bind] at two assoc ⊢
      rw [assoc, two t (by rw [(keep h0).1]) (keep h0).2]
      rfl
  · simp only [if_true]
    show (push16 s r >>= _) = _
    rw [← two s rfl rfl, ← assoc]
    rfl

/-- All that interrupt entry does, when the stack takes the frame and the vector can be read (R411). -/
theorem interrupt_of_canEnter {k : Event} {s : State} (h : s.CanEnter k) (r : Word) :
    ∃ t, interrupt k r s = .ok t ∧ Entered k r s t ∧ (s.mem.wf = true → t.mem.wf = true) := by
  have hl : (frame s r (pushedStatus k s)).length = if s.e then 3 else 4 := by unfold frame; split <;> rfl
  obtain ⟨m, e, hp, hwf⟩ := pushAll_of_canWrite (frame s r (pushedStatus k s)) s (by rw [hl]; split <;> decide)
    (by rw [hl]; exact h.1)
  rw [interrupt_pushes, e, hl]
  refine ⟨_, ?_, ⟨pushedStatus k s, setBit (setBit s.p 2 true) 3 false, m, statusIs_pushedStatus k s, ?_, hp, rfl⟩, hwf⟩
  · simp only [bind, Except.bind]
    have hr : ∀ u : State, u.mem = m → u.memMap = s.memMap → u.deviceWrites = s.deviceWrites → u.draw = s.draw →
        read16 u .vector (vectorEA (vectorOf s.vectors s.e k)) =
          .ok (State.valueAt { s with mem := m } .vector (vectorEA (vectorOf s.vectors s.e k)) .w16) := fun u hm hk hl hd =>
      (read16_congr (t := { s with mem := m }) hm hk hl hd _ _).trans (read16_of_canRead (s := { s with mem := m }) h.2)
    rw [hr] <;> rfl
  · exact (((StatusIs.refl s.p).setBit 2 (by decide) true).setBit 3 (by decide) false).congr
      fun k hk => lookup_swap _ _ _ (by decide) k

/-- Interrupt entry overwrites PC, so the state before it may have any. -/
theorem Entered.of_advance {k : Event} {r : Word} {s t : State} {n : Nat} (h : Entered k r (s.advance n) t) :
    Entered k r s t := by
  obtain ⟨status, p, m, h1, h2, h3, h4⟩ := h
  exact ⟨status, p, m, h1, h2, h3.congr rfl rfl rfl, h4⟩

end Sys2Proof.Machine
end

