-- ==== Sys2Proof/Laws/Meanings.lean ====
section
/-!
SUPPORT. One inversion lemma per meaning that reaches memory: what is there when it answers, and the state it answers. The
meanings that reach no memory answer always, and unfold to their state.
-/
namespace Sys2Proof.Machine

theorem finish_next {x : Acc State} {t : State} : finish x = .next t ↔ x = .ok t := by
  unfold finish
  cases x <;> simp

theorem finish_refused {x : Acc State} {r : Refusal} : finish x = .refused r ↔ x = .error r := by
  unfold finish
  cases x <;> simp

/-- No operation ends in a fault (R400). -/
theorem finish_ne_fault (x : Acc State) (f : Fault) : finish x ≠ .fault f := by
  unfold finish
  cases x <;> simp

theorem ok_inj {α : Type} {a b : α} (h : (pure a : Acc α) = .ok b) : b = a := (Except.ok.inj h).symm

/-! ### Loads, arithmetic, compares -/

theorem lda_ok {o : Source} {s t : State} (h : lda o s = .ok t) :
    ∃ m, o.load s s.wA = .ok m ∧ t = ((s.advance o.length).writeA m).setNZ m := by
  obtain ⟨m, h0, h⟩ := bind_ok h; exact ⟨m, h0, ok_inj h⟩

theorem ldx_ok {o : Source} {s t : State} (h : ldx o s = .ok t) :
    ∃ m, o.load s s.wI = .ok m ∧ t = ((s.advance o.length).writeX m).setNZ m := by
  obtain ⟨m, h0, h⟩ := bind_ok h; exact ⟨m, h0, ok_inj h⟩

theorem ldy_ok {o : Source} {s t : State} (h : ldy o s = .ok t) :
    ∃ m, o.load s s.wI = .ok m ∧ t = ((s.advance o.length).writeY m).setNZ m := by
  obtain ⟨m, h0, h⟩ := bind_ok h; exact ⟨m, h0, ok_inj h⟩

theorem adc_ok {o : Source} {s t : State} (h : adc o s = .ok t) :
    ∃ m, o.load s s.wA = .ok m ∧ t = (s.advance o.length).applySum (adcSum s.flagD (s.accAt s.wA) m s.flagC) := by
  obtain ⟨m, h0, h⟩ := bind_ok h; exact ⟨m, h0, ok_inj h⟩

theorem sbc_ok {o : Source} {s t : State} (h : sbc o s = .ok t) :
    ∃ m, o.load s s.wA = .ok m ∧ t = (s.advance o.length).applySum (sbcSum s.flagD (s.accAt s.wA) m s.flagC) := by
  obtain ⟨m, h0, h⟩ := bind_ok h; exact ⟨m, h0, ok_inj h⟩

theorem logic_ok {f : (w : Nat) → BitVec w → BitVec w → BitVec w} {o : Source} {s t : State} (h : logic f o s = .ok t) :
    ∃ m, o.load s s.wA = .ok m ∧
      t = ((s.advance o.length).writeA (f s.wA.bits (s.accAt s.wA) m)).setNZ (f s.wA.bits (s.accAt s.wA) m) := by
  obtain ⟨m, h0, h⟩ := bind_ok h; exact ⟨m, h0, ok_inj h⟩

theorem cmp_ok {o : Source} {s t : State} (h : cmp o s = .ok t) :
    ∃ m, o.load s s.wA = .ok m ∧ t = (s.advance o.length).compare (s.accAt s.wA) m := by
  obtain ⟨m, h0, h⟩ := bind_ok h; exact ⟨m, h0, ok_inj h⟩

theorem cpx_ok {o : Source} {s t : State} (h : cpx o s = .ok t) :
    ∃ m, o.load s s.wI = .ok m ∧ t = (s.advance o.length).compare (s.xAt s.wI) m := by
  obtain ⟨m, h0, h⟩ := bind_ok h; exact ⟨m, h0, ok_inj h⟩

theorem cpy_ok {o : Source} {s t : State} (h : cpy o s = .ok t) :
    ∃ m, o.load s s.wI = .ok m ∧ t = (s.advance o.length).compare (s.yAt s.wI) m := by
  obtain ⟨m, h0, h⟩ := bind_ok h; exact ⟨m, h0, ok_inj h⟩

theorem bit_ok {m : MemMode} {s t : State} (h : bit m s = .ok t) :
    ∃ ea v, m.ea s = .ok ea ∧ readW s m.access ea s.wA = .ok v ∧
      t = (((s.advance (1 + m.bytes)).testBits (s.accAt s.wA) v).setN v.msb).setV (v.getLsbD (s.wA.bits - 2)) := by
  obtain ⟨ea, h0, h⟩ := bind_ok h
  obtain ⟨v, h1, h⟩ := bind_ok h
  exact ⟨ea, v, h0, h1, ok_inj h⟩

/-! ### Stores and read-modify-write -/

theorem store_ok {w : Width} {v : BitVec w.bits} {m : MemMode} {s t : State} (h : store w v m s = .ok t) :
    ∃ ea mem l, m.ea s = .ok ea ∧ (s.mem.wf = true → mem.wf = true) ∧
      t = { s.advance (1 + m.bytes) with mem := mem, deviceWrites := l } := by
  obtain ⟨ea, h0, h⟩ := bind_ok h
  obtain ⟨mem, l, e, hwf⟩ := storeW_keeps h
  exact ⟨ea, mem, l, h0, hwf, e⟩

theorem shift_ok {f : (w : Nat) → BitVec w → Bool → Shifted w} {o : MemMode} {s t : State}
    (h : shift f (.mem o) s = .ok t) :
    ∃ ea v mem l, o.ea s = .ok ea ∧ readW s .exposed ea s.wA = .ok v ∧ (s.mem.wf = true → mem.wf = true) ∧
      t = State.setNZ
        { (s.advance (Target.mem o).length).setC (f s.wA.bits v s.flagC).carry with mem := mem, deviceWrites := l }
        (f s.wA.bits v s.flagC).res := by
  obtain ⟨ea, h0, h⟩ := bind_ok h
  obtain ⟨v, h1, h⟩ := bind_ok h
  obtain ⟨u, h2, h⟩ := bind_ok h
  obtain ⟨mem, l, rfl, hwf⟩ := writeBackW_keeps h2
  exact ⟨ea, v, mem, l, h0, h1, hwf, ok_inj h⟩

theorem modify_ok {f : (w : Nat) → BitVec w → BitVec w} {o : MemMode} {s t : State} (h : modify f (.mem o) s = .ok t) :
    ∃ ea v mem l, o.ea s = .ok ea ∧ readW s .exposed ea s.wA = .ok v ∧ (s.mem.wf = true → mem.wf = true) ∧
      t = State.setNZ { s.advance (Target.mem o).length with mem := mem, deviceWrites := l } (f s.wA.bits v) := by
  obtain ⟨ea, h0, h⟩ := bind_ok h
  obtain ⟨v, h1, h⟩ := bind_ok h
  obtain ⟨u, h2, h⟩ := bind_ok h
  obtain ⟨mem, l, rfl, hwf⟩ := writeBackW_keeps h2
  exact ⟨ea, v, mem, l, h0, h1, hwf, ok_inj h⟩

theorem testAndChange_ok {f : (w : Nat) → BitVec w → BitVec w → BitVec w} {o : MemMode} {s t : State}
    (h : testAndChange f o s = .ok t) :
    ∃ ea v mem l, o.ea s = .ok ea ∧ readW s .exposed ea s.wA = .ok v ∧ (s.mem.wf = true → mem.wf = true) ∧
      t = { (s.advance (1 + o.bytes)).testBits (s.accAt s.wA) v with mem := mem, deviceWrites := l } := by
  obtain ⟨ea, h0, h⟩ := bind_ok h
  obtain ⟨v, h1, h⟩ := bind_ok h
  obtain ⟨mem, l, e, hwf⟩ := writeBackW_keeps h
  exact ⟨ea, v, mem, l, h0, h1, hwf, e⟩

theorem blockMove_ok {f : (w : Nat) → BitVec w → BitVec w} {dst src : Byte} {s t : State}
    (h : blockMove f dst src s = .ok t) :
    ∃ mem l, (s.mem.wf = true → mem.wf = true) ∧
    let u := (State.writeX { s with dbr := dst, mem := mem, deviceWrites := l }
      (f s.wI.bits (s.xAt s.wI))).writeY (f s.wI.bits (s.yAt s.wI))
    t = if s.c - 1 = 0xFFFF then State.advance { u with c := s.c - 1 } 3 else { u with c := s.c - 1 } := by
  obtain ⟨v, h0, h⟩ := bind_ok h
  obtain ⟨u, h1, h⟩ := bind_ok h
  obtain ⟨mem, l, rfl, hwf⟩ := write8_keeps h1
  exact ⟨mem, l, hwf, ok_inj h⟩

/-! ### Jumps, calls, returns -/

theorem jumpInd_ok {a : Word} {s t : State} (h : jumpInd a s = .ok t) : ∃ ptr, t = { s with pc := ptr } := by
  obtain ⟨v, -, h⟩ := bind_ok h; exact ⟨v, ok_inj h⟩

theorem jumpIndX_ok {a : Word} {s t : State} (h : jumpIndX a s = .ok t) : ∃ ptr, t = { s with pc := ptr } := by
  obtain ⟨v, -, h⟩ := bind_ok h; exact ⟨v, ok_inj h⟩

theorem jumpIndLong_ok {a : Word} {s t : State} (h : jumpIndLong a s = .ok t) :
    ∃ ptr : Addr, t = { s with pc := offsetOf ptr, pbr := bankOf ptr } := by
  obtain ⟨v, -, h⟩ := bind_ok h; exact ⟨v, ok_inj h⟩

theorem push16_keeps {v : Word} {s t : State} (h : push16 s v = .ok t) :
    ∃ mem l, t = { s with mem := mem, deviceWrites := l, s := s.spDown 2 } ∧ (s.mem.wf = true → mem.wf = true) := by
  rw [push16_eq_pushAll] at h
  obtain ⟨mem, l, e, hwf⟩ := pushAll_keeps h
  exact ⟨mem, l, e, hwf⟩

theorem pushW_keeps {w : Width} {v : BitVec w.bits} {s t : State} (h : pushW s w v = .ok t) :
    ∃ mem l, t = { s with mem := mem, deviceWrites := l, s := s.spDown w.bytes } ∧ (s.mem.wf = true → mem.wf = true) := by
  cases w with
  | w8 => exact push8_keeps h
  | w16 => exact push16_keeps h

theorem callAbs_ok {a : Word} {s t : State} (h : callAbs a s = .ok t) :
    ∃ mem l, t = { s with mem := mem, deviceWrites := l, s := s.spDown 2, pc := a } ∧
      (s.mem.wf = true → mem.wf = true) := by
  obtain ⟨u, h0, h⟩ := bind_ok h
  obtain ⟨mem, l, rfl, hwf⟩ := push16_keeps h0
  exact ⟨mem, l, ok_inj h, hwf⟩

theorem callIndX_ok {a : Word} {s t : State} (h : callIndX a s = .ok t) :
    ∃ mem l ptr, t = { s with mem := mem, deviceWrites := l, s := s.spDown 2, pc := ptr } ∧
      (s.mem.wf = true → mem.wf = true) := by
  obtain ⟨u, h0, h⟩ := bind_ok h
  obtain ⟨ptr, -, h⟩ := bind_ok h
  obtain ⟨mem, l, rfl, hwf⟩ := push16_keeps h0
  exact ⟨mem, l, ptr, ok_inj h, hwf⟩

theorem callLong_ok {a : Addr} {s t : State} (h : callLong a s = .ok t) :
    ∃ mem l, t = { s with
        mem := mem, deviceWrites := l, s := s.spDown 3, pc := offsetOf a, pbr := bankOf a } ∧
      (s.mem.wf = true → mem.wf = true) := by
  obtain ⟨u, h0, h⟩ := bind_ok h
  obtain ⟨w, h1, h⟩ := bind_ok h
  obtain ⟨m1, l1, rfl, wf1⟩ := push8_keeps h0
  obtain ⟨m2, l2, rfl, wf2⟩ := push16_keeps h1
  refine ⟨m2, l2, (ok_inj h).trans ?_, fun hh => wf2 (wf1 hh)⟩
  exact congrArg (fun p : Word => { s with mem := m2, deviceWrites := l2, s := p, pc := offsetOf a, pbr := bankOf a })
    (s.spDown_spDown 2)

theorem rts_ok {s t : State} (h : rts s = .ok t) :
    s.CanRead .stack s.pullSlot 2 ∧ t = { s with s := s.spUp 2, pc := s.valueAt .stack s.pullSlot .w16 + 1 } := by
  obtain ⟨⟨v, u⟩, h0, h⟩ := bind_ok h
  obtain ⟨r, rfl, rfl⟩ := pull16_ok h0
  exact ⟨r, ok_inj h⟩

theorem rtl_ok {s t : State} (h : rtl s = .ok t) :
    ∃ b, t = { s with s := s.spUp 3, pc := s.valueAt .stack s.pullSlot .w16 + 1, pbr := b } := by
  obtain ⟨⟨v, u⟩, h0, h⟩ := bind_ok h
  obtain ⟨r, rfl, rfl⟩ := pull16_ok h0
  obtain ⟨⟨b, w⟩, h1, h⟩ := bind_ok h
  obtain ⟨-, -, rfl⟩ := pull8_ok h1
  refine ⟨b, (ok_inj h).trans ?_⟩
  have e : State.spUp { s.advance 1 with s := s.spUp 2 } 1 = s.spUp 3 := s.spUp_add { s.advance 1 with s := s.spUp 2 } 2 1 rfl rfl
  exact congrArg (fun p : Word => { s with s := p, pc := s.valueAt .stack s.pullSlot .w16 + 1, pbr := b }) e

/-! ### Pulls -/

theorem pla_ok {s t : State} (h : pla s = .ok t) :
    s.CanRead .stack s.pullSlot s.wA.bytes ∧
    t = (State.writeA { s.advance 1 with s := s.spUp s.wA.bytes } (s.valueAt .stack s.pullSlot s.wA)).setNZ
      (s.valueAt .stack s.pullSlot s.wA) := by
  obtain ⟨⟨v, u⟩, h0, h⟩ := bind_ok h
  obtain ⟨r, rfl, rfl⟩ := pullW_ok h0
  exact ⟨r, ok_inj h⟩

theorem plx_ok {s t : State} (h : plx s = .ok t) :
    s.CanRead .stack s.pullSlot s.wI.bytes ∧
    t = (State.writeX { s.advance 1 with s := s.spUp s.wI.bytes } (s.valueAt .stack s.pullSlot s.wI)).setNZ
      (s.valueAt .stack s.pullSlot s.wI) := by
  obtain ⟨⟨v, u⟩, h0, h⟩ := bind_ok h
  obtain ⟨r, rfl, rfl⟩ := pullW_ok h0
  exact ⟨r, ok_inj h⟩

theorem ply_ok {s t : State} (h : ply s = .ok t) :
    s.CanRead .stack s.pullSlot s.wI.bytes ∧
    t = (State.writeY { s.advance 1 with s := s.spUp s.wI.bytes } (s.valueAt .stack s.pullSlot s.wI)).setNZ
      (s.valueAt .stack s.pullSlot s.wI) := by
  obtain ⟨⟨v, u⟩, h0, h⟩ := bind_ok h
  obtain ⟨r, rfl, rfl⟩ := pullW_ok h0
  exact ⟨r, ok_inj h⟩

theorem plb_ok {s t : State} (h : plb s = .ok t) :
    s.CanRead .stack s.pullSlot 1 ∧
    t = State.setNZ { s.advance 1 with s := s.spUp 1, dbr := s.seen .stack (s.pullSlot 0) } (s.seen .stack (s.pullSlot 0)) := by
  obtain ⟨⟨v, u⟩, h0, h⟩ := bind_ok h
  obtain ⟨r, rfl, rfl⟩ := pull8_ok h0
  exact ⟨r, ok_inj h⟩

theorem pld_ok {s t : State} (h : pld s = .ok t) :
    s.CanRead .stack s.pullSlot 2 ∧
    t = State.setNZ { s.advance 1 with s := s.spUp 2, d := s.valueAt .stack s.pullSlot .w16 } (s.valueAt .stack s.pullSlot .w16) := by
  obtain ⟨⟨v, u⟩, h0, h⟩ := bind_ok h
  obtain ⟨r, rfl, rfl⟩ := pull16_ok h0
  exact ⟨r, ok_inj h⟩

theorem plp_ok {s t : State} (h : plp s = .ok t) :
    s.CanRead .stack s.pullSlot 1 ∧ t = State.setP { s.advance 1 with s := s.spUp 1 } (s.seen .stack (s.pullSlot 0)) := by
  obtain ⟨⟨v, u⟩, h0, h⟩ := bind_ok h
  obtain ⟨r, rfl, rfl⟩ := pull8_ok h0
  exact ⟨r, ok_inj h⟩

/-- All that return from interrupt can do (R413). -/
theorem rti_ok {s t : State} (h : rti s = .ok t) :
    ∃ v target b, t = { State.setP { s with s := s.spUp (if s.e then 3 else 4) } v with
      pc := target, pbr := if s.e then s.pbr else b } := by
  obtain ⟨⟨v, u⟩, h0, h⟩ := bind_ok h
  obtain ⟨-, rfl, rfl⟩ := pull8_ok h0
  obtain ⟨⟨target, w⟩, h1, h⟩ := bind_ok h
  obtain ⟨-, rfl, rfl⟩ := pull16_ok h1
  generalize hv : (s.advance 1).seen .stack ((s.advance 1).pullSlot 0) = v at h h0 h1
  generalize hu : State.setP { s.advance 1 with s := (s.advance 1).spUp 1 } v = u at h h1
  have ue : u.e = s.e := by rw [← hu]; simp
  have us : u.s = s.spUp 1 := by rw [← hu]; simp; rfl
  have u2 : u.spUp 2 = s.spUp 3 := s.spUp_add u 1 2 ue us
  by_cases e : s.e = true
  · refine ⟨v, u.valueAt .stack u.pullSlot .w16, 0, ?_⟩
    simp only [ue, e, if_true] at h
    rw [ok_inj h]
    apply State.ext
    case s =>
      show u.spUp 2 = (State.setP { s with s := s.spUp (if s.e then 3 else 4) } v).s
      rw [State.setP_s, if_pos e]; exact u2
    all_goals simp [e, ← hu]
  · simp only [ue, e, if_false, Bool.false_eq_true] at h
    obtain ⟨⟨b, x⟩, h2, h⟩ := bind_ok h
    obtain ⟨-, -, rfl⟩ := pull8_ok h2
    refine ⟨v, u.valueAt .stack u.pullSlot .w16, b, ?_⟩
    have u3 : State.spUp { u with s := u.spUp 2, pc := u.valueAt .stack u.pullSlot .w16 } 1 =
        s.spUp 4 := s.spUp_add _ 3 1 ue u2
    rw [ok_inj h]
    apply State.ext
    case s =>
      show _ = (State.setP { s with s := s.spUp (if s.e then 3 else 4) } v).s
      rw [State.setP_s, if_neg e, ← u3]
      simp only [ue, e]
    all_goals simp [e, ← hu]

/-- All that interrupt entry can do (R411). -/
theorem interrupt_ok {k : Event} {r : Word} {s t : State} (h : interrupt k r s = .ok t) :
    ∃ mem l target, t = { (s.setI true).setD false with
      mem := mem, deviceWrites := l, s := s.spDown (if s.e then 3 else 4), pbr := 0, pc := target } ∧
      (s.mem.wf = true → mem.wf = true) := by
  rw [interrupt_pushes] at h
  have hl : (frame s r (pushedStatus k s)).length = if s.e then 3 else 4 := by unfold frame; split <;> rfl
  obtain ⟨u, h0, h⟩ := bind_ok h
  obtain ⟨mem, l, rfl, hwf⟩ := pushAll_keeps h0
  obtain ⟨target, -, h⟩ := bind_ok h
  rw [hl] at h
  exact ⟨mem, l, target, ok_inj h, hwf⟩

/-- All that the reset sequence can do (R450). -/
theorem doReset_ok {s t : State} (h : doReset s = .ok t) :
    t = { s with
      c := Config.resetC s.draw, x := word 0 (Config.resetXL s.draw), y := word 0 (Config.resetYL s.draw)
      s := word 0x01 (Config.resetSL s.draw), d := 0x0000, dbr := 0x00, pbr := 0x00
      p := (Config.resetNVZC s.draw &&& 0xC3) ||| 0x34, e := true, run := .running, nmiPending := false
      mem := redrawRam s.memMap (Config.resetRam s.draw) s.mem
      pc := t.valueAt .vector (vectorEA s.vectors.emuReset) .w16 } := by
  obtain ⟨target, h0, h⟩ := bind_ok h
  obtain ⟨-, rfl⟩ := read16_ok h0
  obtain rfl := ok_inj h
  rfl

/-- The reset sequence completes where its vector can be read (R450). -/
theorem doReset_of_canRead {s : State} (h : s.CanRead .vector (vectorEA s.vectors.emuReset) 2) :
    ∃ t, doReset s = .ok t := by
  simp only [doReset]
  rw [read16_of_canRead (by exact h)]
  exact ⟨_, rfl⟩

theorem pei_ok {o : Byte} {s t : State} (h : pei o s = .ok t) :
    ∃ mem l, t = { s.advance 2 with mem := mem, deviceWrites := l, s := s.spDown 2 } ∧ (s.mem.wf = true → mem.wf = true) := by
  obtain ⟨v, -, h⟩ := bind_ok h
  exact push16_keeps h

end Sys2Proof.Machine
end

