-- ==== Sys2Proof/Laws/PerInstr.lean ====
section
/-!
SUPPORT. The family DecodeEncode: decoding the bytes of a well-formed instruction gives it back, one lemma per constructor of
Instr.
-/
namespace Sys2Proof.Laws.DecodeEncode
open Sys2Proof

/-- Decoding the bytes of `i`, under flags it is well-formed for, gives `i` and what follows (R102, R103, R105). -/
def Statement (i : Instr) : Prop :=
  ∀ (m x : Bool) (rest : List Byte), i.wellFormed m x = true → decode m x (encode i ++ rest) = .ok (i, rest)

theorem brk (sig : Byte) : Statement (.brk sig) := fun m x rest _ => decode_one rfl m x sig rest
theorem oraDpXInd (dp : Byte) : Statement (.oraDpXInd dp) := fun m x rest _ => decode_one rfl m x dp rest
theorem cop (sig : Byte) : Statement (.cop sig) := fun m x rest _ => decode_one rfl m x sig rest
theorem oraSr (sr : Byte) : Statement (.oraSr sr) := fun m x rest _ => decode_one rfl m x sr rest
theorem tsbDp (dp : Byte) : Statement (.tsbDp dp) := fun m x rest _ => decode_one rfl m x dp rest
theorem oraDp (dp : Byte) : Statement (.oraDp dp) := fun m x rest _ => decode_one rfl m x dp rest
theorem aslDp (dp : Byte) : Statement (.aslDp dp) := fun m x rest _ => decode_one rfl m x dp rest
theorem oraDpIndLong (dp : Byte) : Statement (.oraDpIndLong dp) := fun m x rest _ => decode_one rfl m x dp rest
theorem php : Statement .php := fun m x rest _ => decode_implied rfl m x rest
theorem oraImm (imm : Imm) : Statement (.oraImm imm) := fun m x rest h => decode_immA rfl m x h rest
theorem aslAcc : Statement .aslAcc := fun m x rest _ => decode_implied rfl m x rest
theorem phd : Statement .phd := fun m x rest _ => decode_implied rfl m x rest
theorem tsbAbs (abs : Word) : Statement (.tsbAbs abs) := fun m x rest _ => decode_two rfl m x abs rest
theorem oraAbs (abs : Word) : Statement (.oraAbs abs) := fun m x rest _ => decode_two rfl m x abs rest
theorem aslAbs (abs : Word) : Statement (.aslAbs abs) := fun m x rest _ => decode_two rfl m x abs rest
theorem oraLong (long : Addr) : Statement (.oraLong long) := fun m x rest _ => decode_three rfl m x long rest
theorem bpl (rel : Byte) : Statement (.bpl rel) := fun m x rest _ => decode_one rfl m x rel rest
theorem oraDpIndY (dp : Byte) : Statement (.oraDpIndY dp) := fun m x rest _ => decode_one rfl m x dp rest
theorem oraDpInd (dp : Byte) : Statement (.oraDpInd dp) := fun m x rest _ => decode_one rfl m x dp rest
theorem oraSrIndY (sr : Byte) : Statement (.oraSrIndY sr) := fun m x rest _ => decode_one rfl m x sr rest
theorem trbDp (dp : Byte) : Statement (.trbDp dp) := fun m x rest _ => decode_one rfl m x dp rest
theorem oraDpX (dp : Byte) : Statement (.oraDpX dp) := fun m x rest _ => decode_one rfl m x dp rest
theorem aslDpX (dp : Byte) : Statement (.aslDpX dp) := fun m x rest _ => decode_one rfl m x dp rest
theorem oraDpIndLongY (dp : Byte) : Statement (.oraDpIndLongY dp) := fun m x rest _ => decode_one rfl m x dp rest
theorem clc : Statement .clc := fun m x rest _ => decode_implied rfl m x rest
theorem oraAbsY (abs : Word) : Statement (.oraAbsY abs) := fun m x rest _ => decode_two rfl m x abs rest
theorem incAcc : Statement .incAcc := fun m x rest _ => decode_implied rfl m x rest
theorem tcs : Statement .tcs := fun m x rest _ => decode_implied rfl m x rest
theorem trbAbs (abs : Word) : Statement (.trbAbs abs) := fun m x rest _ => decode_two rfl m x abs rest
theorem oraAbsX (abs : Word) : Statement (.oraAbsX abs) := fun m x rest _ => decode_two rfl m x abs rest
theorem aslAbsX (abs : Word) : Statement (.aslAbsX abs) := fun m x rest _ => decode_two rfl m x abs rest
theorem oraLongX (long : Addr) : Statement (.oraLongX long) := fun m x rest _ => decode_three rfl m x long rest
theorem jsrAbs (abs : Word) : Statement (.jsrAbs abs) := fun m x rest _ => decode_two rfl m x abs rest
theorem andDpXInd (dp : Byte) : Statement (.andDpXInd dp) := fun m x rest _ => decode_one rfl m x dp rest
theorem jsl (long : Addr) : Statement (.jsl long) := fun m x rest _ => decode_three rfl m x long rest
theorem andSr (sr : Byte) : Statement (.andSr sr) := fun m x rest _ => decode_one rfl m x sr rest
theorem bitDp (dp : Byte) : Statement (.bitDp dp) := fun m x rest _ => decode_one rfl m x dp rest
theorem andDp (dp : Byte) : Statement (.andDp dp) := fun m x rest _ => decode_one rfl m x dp rest
theorem rolDp (dp : Byte) : Statement (.rolDp dp) := fun m x rest _ => decode_one rfl m x dp rest
theorem andDpIndLong (dp : Byte) : Statement (.andDpIndLong dp) := fun m x rest _ => decode_one rfl m x dp rest
theorem plp : Statement .plp := fun m x rest _ => decode_implied rfl m x rest
theorem andImm (imm : Imm) : Statement (.andImm imm) := fun m x rest h => decode_immA rfl m x h rest
theorem rolAcc : Statement .rolAcc := fun m x rest _ => decode_implied rfl m x rest
theorem pld : Statement .pld := fun m x rest _ => decode_implied rfl m x rest
theorem bitAbs (abs : Word) : Statement (.bitAbs abs) := fun m x rest _ => decode_two rfl m x abs rest
theorem andAbs (abs : Word) : Statement (.andAbs abs) := fun m x rest _ => decode_two rfl m x abs rest
theorem rolAbs (abs : Word) : Statement (.rolAbs abs) := fun m x rest _ => decode_two rfl m x abs rest
theorem andLong (long : Addr) : Statement (.andLong long) := fun m x rest _ => decode_three rfl m x long rest
theorem bmi (rel : Byte) : Statement (.bmi rel) := fun m x rest _ => decode_one rfl m x rel rest
theorem andDpIndY (dp : Byte) : Statement (.andDpIndY dp) := fun m x rest _ => decode_one rfl m x dp rest
theorem andDpInd (dp : Byte) : Statement (.andDpInd dp) := fun m x rest _ => decode_one rfl m x dp rest
theorem andSrIndY (sr : Byte) : Statement (.andSrIndY sr) := fun m x rest _ => decode_one rfl m x sr rest
theorem bitDpX (dp : Byte) : Statement (.bitDpX dp) := fun m x rest _ => decode_one rfl m x dp rest
theorem andDpX (dp : Byte) : Statement (.andDpX dp) := fun m x rest _ => decode_one rfl m x dp rest
theorem rolDpX (dp : Byte) : Statement (.rolDpX dp) := fun m x rest _ => decode_one rfl m x dp rest
theorem andDpIndLongY (dp : Byte) : Statement (.andDpIndLongY dp) := fun m x rest _ => decode_one rfl m x dp rest
theorem sec : Statement .sec := fun m x rest _ => decode_implied rfl m x rest
theorem andAbsY (abs : Word) : Statement (.andAbsY abs) := fun m x rest _ => decode_two rfl m x abs rest
theorem decAcc : Statement .decAcc := fun m x rest _ => decode_implied rfl m x rest
theorem tsc : Statement .tsc := fun m x rest _ => decode_implied rfl m x rest
theorem bitAbsX (abs : Word) : Statement (.bitAbsX abs) := fun m x rest _ => decode_two rfl m x abs rest
theorem andAbsX (abs : Word) : Statement (.andAbsX abs) := fun m x rest _ => decode_two rfl m x abs rest
theorem rolAbsX (abs : Word) : Statement (.rolAbsX abs) := fun m x rest _ => decode_two rfl m x abs rest
theorem andLongX (long : Addr) : Statement (.andLongX long) := fun m x rest _ => decode_three rfl m x long rest
theorem rti : Statement .rti := fun m x rest _ => decode_implied rfl m x rest
theorem eorDpXInd (dp : Byte) : Statement (.eorDpXInd dp) := fun m x rest _ => decode_one rfl m x dp rest
theorem wdm (sig : Byte) : Statement (.wdm sig) := fun m x rest _ => decode_one rfl m x sig rest
theorem eorSr (sr : Byte) : Statement (.eorSr sr) := fun m x rest _ => decode_one rfl m x sr rest
theorem mvp (dst : Byte) (src : Byte) : Statement (.mvp dst src) := fun m x rest _ => decode_banks rfl m x dst src rest
theorem eorDp (dp : Byte) : Statement (.eorDp dp) := fun m x rest _ => decode_one rfl m x dp rest
theorem lsrDp (dp : Byte) : Statement (.lsrDp dp) := fun m x rest _ => decode_one rfl m x dp rest
theorem eorDpIndLong (dp : Byte) : Statement (.eorDpIndLong dp) := fun m x rest _ => decode_one rfl m x dp rest
theorem pha : Statement .pha := fun m x rest _ => decode_implied rfl m x rest
theorem eorImm (imm : Imm) : Statement (.eorImm imm) := fun m x rest h => decode_immA rfl m x h rest
theorem lsrAcc : Statement .lsrAcc := fun m x rest _ => decode_implied rfl m x rest
theorem phk : Statement .phk := fun m x rest _ => decode_implied rfl m x rest
theorem jmpAbs (abs : Word) : Statement (.jmpAbs abs) := fun m x rest _ => decode_two rfl m x abs rest
theorem eorAbs (abs : Word) : Statement (.eorAbs abs) := fun m x rest _ => decode_two rfl m x abs rest
theorem lsrAbs (abs : Word) : Statement (.lsrAbs abs) := fun m x rest _ => decode_two rfl m x abs rest
theorem eorLong (long : Addr) : Statement (.eorLong long) := fun m x rest _ => decode_three rfl m x long rest
theorem bvc (rel : Byte) : Statement (.bvc rel) := fun m x rest _ => decode_one rfl m x rel rest
theorem eorDpIndY (dp : Byte) : Statement (.eorDpIndY dp) := fun m x rest _ => decode_one rfl m x dp rest
theorem eorDpInd (dp : Byte) : Statement (.eorDpInd dp) := fun m x rest _ => decode_one rfl m x dp rest
theorem eorSrIndY (sr : Byte) : Statement (.eorSrIndY sr) := fun m x rest _ => decode_one rfl m x sr rest
theorem mvn (dst : Byte) (src : Byte) : Statement (.mvn dst src) := fun m x rest _ => decode_banks rfl m x dst src rest
theorem eorDpX (dp : Byte) : Statement (.eorDpX dp) := fun m x rest _ => decode_one rfl m x dp rest
theorem lsrDpX (dp : Byte) : Statement (.lsrDpX dp) := fun m x rest _ => decode_one rfl m x dp rest
theorem eorDpIndLongY (dp : Byte) : Statement (.eorDpIndLongY dp) := fun m x rest _ => decode_one rfl m x dp rest
theorem cli : Statement .cli := fun m x rest _ => decode_implied rfl m x rest
theorem eorAbsY (abs : Word) : Statement (.eorAbsY abs) := fun m x rest _ => decode_two rfl m x abs rest
theorem phy : Statement .phy := fun m x rest _ => decode_implied rfl m x rest
theorem tcd : Statement .tcd := fun m x rest _ => decode_implied rfl m x rest
theorem jmlLong (long : Addr) : Statement (.jmlLong long) := fun m x rest _ => decode_three rfl m x long rest
theorem eorAbsX (abs : Word) : Statement (.eorAbsX abs) := fun m x rest _ => decode_two rfl m x abs rest
theorem lsrAbsX (abs : Word) : Statement (.lsrAbsX abs) := fun m x rest _ => decode_two rfl m x abs rest
theorem eorLongX (long : Addr) : Statement (.eorLongX long) := fun m x rest _ => decode_three rfl m x long rest
theorem rts : Statement .rts := fun m x rest _ => decode_implied rfl m x rest
theorem adcDpXInd (dp : Byte) : Statement (.adcDpXInd dp) := fun m x rest _ => decode_one rfl m x dp rest
theorem per (rell : Word) : Statement (.per rell) := fun m x rest _ => decode_two rfl m x rell rest
theorem adcSr (sr : Byte) : Statement (.adcSr sr) := fun m x rest _ => decode_one rfl m x sr rest
theorem stzDp (dp : Byte) : Statement (.stzDp dp) := fun m x rest _ => decode_one rfl m x dp rest
theorem adcDp (dp : Byte) : Statement (.adcDp dp) := fun m x rest _ => decode_one rfl m x dp rest
theorem rorDp (dp : Byte) : Statement (.rorDp dp) := fun m x rest _ => decode_one rfl m x dp rest
theorem adcDpIndLong (dp : Byte) : Statement (.adcDpIndLong dp) := fun m x rest _ => decode_one rfl m x dp rest
theorem pla : Statement .pla := fun m x rest _ => decode_implied rfl m x rest
theorem adcImm (imm : Imm) : Statement (.adcImm imm) := fun m x rest h => decode_immA rfl m x h rest
theorem rorAcc : Statement .rorAcc := fun m x rest _ => decode_implied rfl m x rest
theorem rtl : Statement .rtl := fun m x rest _ => decode_implied rfl m x rest
theorem jmpInd (abs : Word) : Statement (.jmpInd abs) := fun m x rest _ => decode_two rfl m x abs rest
theorem adcAbs (abs : Word) : Statement (.adcAbs abs) := fun m x rest _ => decode_two rfl m x abs rest
theorem rorAbs (abs : Word) : Statement (.rorAbs abs) := fun m x rest _ => decode_two rfl m x abs rest
theorem adcLong (long : Addr) : Statement (.adcLong long) := fun m x rest _ => decode_three rfl m x long rest
theorem bvs (rel : Byte) : Statement (.bvs rel) := fun m x rest _ => decode_one rfl m x rel rest
theorem adcDpIndY (dp : Byte) : Statement (.adcDpIndY dp) := fun m x rest _ => decode_one rfl m x dp rest
theorem adcDpInd (dp : Byte) : Statement (.adcDpInd dp) := fun m x rest _ => decode_one rfl m x dp rest
theorem adcSrIndY (sr : Byte) : Statement (.adcSrIndY sr) := fun m x rest _ => decode_one rfl m x sr rest
theorem stzDpX (dp : Byte) : Statement (.stzDpX dp) := fun m x rest _ => decode_one rfl m x dp rest
theorem adcDpX (dp : Byte) : Statement (.adcDpX dp) := fun m x rest _ => decode_one rfl m x dp rest
theorem rorDpX (dp : Byte) : Statement (.rorDpX dp) := fun m x rest _ => decode_one rfl m x dp rest
theorem adcDpIndLongY (dp : Byte) : Statement (.adcDpIndLongY dp) := fun m x rest _ => decode_one rfl m x dp rest
theorem sei : Statement .sei := fun m x rest _ => decode_implied rfl m x rest
theorem adcAbsY (abs : Word) : Statement (.adcAbsY abs) := fun m x rest _ => decode_two rfl m x abs rest
theorem ply : Statement .ply := fun m x rest _ => decode_implied rfl m x rest
theorem tdc : Statement .tdc := fun m x rest _ => decode_implied rfl m x rest
theorem jmpIndX (abs : Word) : Statement (.jmpIndX abs) := fun m x rest _ => decode_two rfl m x abs rest
theorem adcAbsX (abs : Word) : Statement (.adcAbsX abs) := fun m x rest _ => decode_two rfl m x abs rest
theorem rorAbsX (abs : Word) : Statement (.rorAbsX abs) := fun m x rest _ => decode_two rfl m x abs rest
theorem adcLongX (long : Addr) : Statement (.adcLongX long) := fun m x rest _ => decode_three rfl m x long rest
theorem bra (rel : Byte) : Statement (.bra rel) := fun m x rest _ => decode_one rfl m x rel rest
theorem staDpXInd (dp : Byte) : Statement (.staDpXInd dp) := fun m x rest _ => decode_one rfl m x dp rest
theorem brl (rell : Word) : Statement (.brl rell) := fun m x rest _ => decode_two rfl m x rell rest
theorem staSr (sr : Byte) : Statement (.staSr sr) := fun m x rest _ => decode_one rfl m x sr rest
theorem styDp (dp : Byte) : Statement (.styDp dp) := fun m x rest _ => decode_one rfl m x dp rest
theorem staDp (dp : Byte) : Statement (.staDp dp) := fun m x rest _ => decode_one rfl m x dp rest
theorem stxDp (dp : Byte) : Statement (.stxDp dp) := fun m x rest _ => decode_one rfl m x dp rest
theorem staDpIndLong (dp : Byte) : Statement (.staDpIndLong dp) := fun m x rest _ => decode_one rfl m x dp rest
theorem dey : Statement .dey := fun m x rest _ => decode_implied rfl m x rest
theorem bitImm (imm : Imm) : Statement (.bitImm imm) := fun m x rest h => decode_immA rfl m x h rest
theorem txa : Statement .txa := fun m x rest _ => decode_implied rfl m x rest
theorem phb : Statement .phb := fun m x rest _ => decode_implied rfl m x rest
theorem styAbs (abs : Word) : Statement (.styAbs abs) := fun m x rest _ => decode_two rfl m x abs rest
theorem staAbs (abs : Word) : Statement (.staAbs abs) := fun m x rest _ => decode_two rfl m x abs rest
theorem stxAbs (abs : Word) : Statement (.stxAbs abs) := fun m x rest _ => decode_two rfl m x abs rest
theorem staLong (long : Addr) : Statement (.staLong long) := fun m x rest _ => decode_three rfl m x long rest
theorem bcc (rel : Byte) : Statement (.bcc rel) := fun m x rest _ => decode_one rfl m x rel rest
theorem staDpIndY (dp : Byte) : Statement (.staDpIndY dp) := fun m x rest _ => decode_one rfl m x dp rest
theorem staDpInd (dp : Byte) : Statement (.staDpInd dp) := fun m x rest _ => decode_one rfl m x dp rest
theorem staSrIndY (sr : Byte) : Statement (.staSrIndY sr) := fun m x rest _ => decode_one rfl m x sr rest
theorem styDpX (dp : Byte) : Statement (.styDpX dp) := fun m x rest _ => decode_one rfl m x dp rest
theorem staDpX (dp : Byte) : Statement (.staDpX dp) := fun m x rest _ => decode_one rfl m x dp rest
theorem stxDpY (dp : Byte) : Statement (.stxDpY dp) := fun m x rest _ => decode_one rfl m x dp rest
theorem staDpIndLongY (dp : Byte) : Statement (.staDpIndLongY dp) := fun m x rest _ => decode_one rfl m x dp rest
theorem tya : Statement .tya := fun m x rest _ => decode_implied rfl m x rest
theorem staAbsY (abs : Word) : Statement (.staAbsY abs) := fun m x rest _ => decode_two rfl m x abs rest
theorem txs : Statement .txs := fun m x rest _ => decode_implied rfl m x rest
theorem txy : Statement .txy := fun m x rest _ => decode_implied rfl m x rest
theorem stzAbs (abs : Word) : Statement (.stzAbs abs) := fun m x rest _ => decode_two rfl m x abs rest
theorem staAbsX (abs : Word) : Statement (.staAbsX abs) := fun m x rest _ => decode_two rfl m x abs rest
theorem stzAbsX (abs : Word) : Statement (.stzAbsX abs) := fun m x rest _ => decode_two rfl m x abs rest
theorem staLongX (long : Addr) : Statement (.staLongX long) := fun m x rest _ => decode_three rfl m x long rest
theorem ldyImm (imm : Imm) : Statement (.ldyImm imm) := fun m x rest h => decode_immI rfl m x h rest
theorem ldaDpXInd (dp : Byte) : Statement (.ldaDpXInd dp) := fun m x rest _ => decode_one rfl m x dp rest
theorem ldxImm (imm : Imm) : Statement (.ldxImm imm) := fun m x rest h => decode_immI rfl m x h rest
theorem ldaSr (sr : Byte) : Statement (.ldaSr sr) := fun m x rest _ => decode_one rfl m x sr rest
theorem ldyDp (dp : Byte) : Statement (.ldyDp dp) := fun m x rest _ => decode_one rfl m x dp rest
theorem ldaDp (dp : Byte) : Statement (.ldaDp dp) := fun m x rest _ => decode_one rfl m x dp rest
theorem ldxDp (dp : Byte) : Statement (.ldxDp dp) := fun m x rest _ => decode_one rfl m x dp rest
theorem ldaDpIndLong (dp : Byte) : Statement (.ldaDpIndLong dp) := fun m x rest _ => decode_one rfl m x dp rest
theorem tay : Statement .tay := fun m x rest _ => decode_implied rfl m x rest
theorem ldaImm (imm : Imm) : Statement (.ldaImm imm) := fun m x rest h => decode_immA rfl m x h rest
theorem tax : Statement .tax := fun m x rest _ => decode_implied rfl m x rest
theorem plb : Statement .plb := fun m x rest _ => decode_implied rfl m x rest
theorem ldyAbs (abs : Word) : Statement (.ldyAbs abs) := fun m x rest _ => decode_two rfl m x abs rest
theorem ldaAbs (abs : Word) : Statement (.ldaAbs abs) := fun m x rest _ => decode_two rfl m x abs rest
theorem ldxAbs (abs : Word) : Statement (.ldxAbs abs) := fun m x rest _ => decode_two rfl m x abs rest
theorem ldaLong (long : Addr) : Statement (.ldaLong long) := fun m x rest _ => decode_three rfl m x long rest
theorem bcs (rel : Byte) : Statement (.bcs rel) := fun m x rest _ => decode_one rfl m x rel rest
theorem ldaDpIndY (dp : Byte) : Statement (.ldaDpIndY dp) := fun m x rest _ => decode_one rfl m x dp rest
theorem ldaDpInd (dp : Byte) : Statement (.ldaDpInd dp) := fun m x rest _ => decode_one rfl m x dp rest
theorem ldaSrIndY (sr : Byte) : Statement (.ldaSrIndY sr) := fun m x rest _ => decode_one rfl m x sr rest
theorem ldyDpX (dp : Byte) : Statement (.ldyDpX dp) := fun m x rest _ => decode_one rfl m x dp rest
theorem ldaDpX (dp : Byte) : Statement (.ldaDpX dp) := fun m x rest _ => decode_one rfl m x dp rest
theorem ldxDpY (dp : Byte) : Statement (.ldxDpY dp) := fun m x rest _ => decode_one rfl m x dp rest
theorem ldaDpIndLongY (dp : Byte) : Statement (.ldaDpIndLongY dp) := fun m x rest _ => decode_one rfl m x dp rest
theorem clv : Statement .clv := fun m x rest _ => decode_implied rfl m x rest
theorem ldaAbsY (abs : Word) : Statement (.ldaAbsY abs) := fun m x rest _ => decode_two rfl m x abs rest
theorem tsx : Statement .tsx := fun m x rest _ => decode_implied rfl m x rest
theorem tyx : Statement .tyx := fun m x rest _ => decode_implied rfl m x rest
theorem ldyAbsX (abs : Word) : Statement (.ldyAbsX abs) := fun m x rest _ => decode_two rfl m x abs rest
theorem ldaAbsX (abs : Word) : Statement (.ldaAbsX abs) := fun m x rest _ => decode_two rfl m x abs rest
theorem ldxAbsY (abs : Word) : Statement (.ldxAbsY abs) := fun m x rest _ => decode_two rfl m x abs rest
theorem ldaLongX (long : Addr) : Statement (.ldaLongX long) := fun m x rest _ => decode_three rfl m x long rest
theorem cpyImm (imm : Imm) : Statement (.cpyImm imm) := fun m x rest h => decode_immI rfl m x h rest
theorem cmpDpXInd (dp : Byte) : Statement (.cmpDpXInd dp) := fun m x rest _ => decode_one rfl m x dp rest
theorem rep (imm : Byte) : Statement (.rep imm) := fun m x rest _ => decode_one rfl m x imm rest
theorem cmpSr (sr : Byte) : Statement (.cmpSr sr) := fun m x rest _ => decode_one rfl m x sr rest
theorem cpyDp (dp : Byte) : Statement (.cpyDp dp) := fun m x rest _ => decode_one rfl m x dp rest
theorem cmpDp (dp : Byte) : Statement (.cmpDp dp) := fun m x rest _ => decode_one rfl m x dp rest
theorem decDp (dp : Byte) : Statement (.decDp dp) := fun m x rest _ => decode_one rfl m x dp rest
theorem cmpDpIndLong (dp : Byte) : Statement (.cmpDpIndLong dp) := fun m x rest _ => decode_one rfl m x dp rest
theorem iny : Statement .iny := fun m x rest _ => decode_implied rfl m x rest
theorem cmpImm (imm : Imm) : Statement (.cmpImm imm) := fun m x rest h => decode_immA rfl m x h rest
theorem dex : Statement .dex := fun m x rest _ => decode_implied rfl m x rest
theorem wai : Statement .wai := fun m x rest _ => decode_implied rfl m x rest
theorem cpyAbs (abs : Word) : Statement (.cpyAbs abs) := fun m x rest _ => decode_two rfl m x abs rest
theorem cmpAbs (abs : Word) : Statement (.cmpAbs abs) := fun m x rest _ => decode_two rfl m x abs rest
theorem decAbs (abs : Word) : Statement (.decAbs abs) := fun m x rest _ => decode_two rfl m x abs rest
theorem cmpLong (long : Addr) : Statement (.cmpLong long) := fun m x rest _ => decode_three rfl m x long rest
theorem bne (rel : Byte) : Statement (.bne rel) := fun m x rest _ => decode_one rfl m x rel rest
theorem cmpDpIndY (dp : Byte) : Statement (.cmpDpIndY dp) := fun m x rest _ => decode_one rfl m x dp rest
theorem cmpDpInd (dp : Byte) : Statement (.cmpDpInd dp) := fun m x rest _ => decode_one rfl m x dp rest
theorem cmpSrIndY (sr : Byte) : Statement (.cmpSrIndY sr) := fun m x rest _ => decode_one rfl m x sr rest
theorem pei (dp : Byte) : Statement (.pei dp) := fun m x rest _ => decode_one rfl m x dp rest
theorem cmpDpX (dp : Byte) : Statement (.cmpDpX dp) := fun m x rest _ => decode_one rfl m x dp rest
theorem decDpX (dp : Byte) : Statement (.decDpX dp) := fun m x rest _ => decode_one rfl m x dp rest
theorem cmpDpIndLongY (dp : Byte) : Statement (.cmpDpIndLongY dp) := fun m x rest _ => decode_one rfl m x dp rest
theorem cld : Statement .cld := fun m x rest _ => decode_implied rfl m x rest
theorem cmpAbsY (abs : Word) : Statement (.cmpAbsY abs) := fun m x rest _ => decode_two rfl m x abs rest
theorem phx : Statement .phx := fun m x rest _ => decode_implied rfl m x rest
theorem stp : Statement .stp := fun m x rest _ => decode_implied rfl m x rest
theorem jmlInd (abs : Word) : Statement (.jmlInd abs) := fun m x rest _ => decode_two rfl m x abs rest
theorem cmpAbsX (abs : Word) : Statement (.cmpAbsX abs) := fun m x rest _ => decode_two rfl m x abs rest
theorem decAbsX (abs : Word) : Statement (.decAbsX abs) := fun m x rest _ => decode_two rfl m x abs rest
theorem cmpLongX (long : Addr) : Statement (.cmpLongX long) := fun m x rest _ => decode_three rfl m x long rest
theorem cpxImm (imm : Imm) : Statement (.cpxImm imm) := fun m x rest h => decode_immI rfl m x h rest
theorem sbcDpXInd (dp : Byte) : Statement (.sbcDpXInd dp) := fun m x rest _ => decode_one rfl m x dp rest
theorem sep (imm : Byte) : Statement (.sep imm) := fun m x rest _ => decode_one rfl m x imm rest
theorem sbcSr (sr : Byte) : Statement (.sbcSr sr) := fun m x rest _ => decode_one rfl m x sr rest
theorem cpxDp (dp : Byte) : Statement (.cpxDp dp) := fun m x rest _ => decode_one rfl m x dp rest
theorem sbcDp (dp : Byte) : Statement (.sbcDp dp) := fun m x rest _ => decode_one rfl m x dp rest
theorem incDp (dp : Byte) : Statement (.incDp dp) := fun m x rest _ => decode_one rfl m x dp rest
theorem sbcDpIndLong (dp : Byte) : Statement (.sbcDpIndLong dp) := fun m x rest _ => decode_one rfl m x dp rest
theorem inx : Statement .inx := fun m x rest _ => decode_implied rfl m x rest
theorem sbcImm (imm : Imm) : Statement (.sbcImm imm) := fun m x rest h => decode_immA rfl m x h rest
theorem nop : Statement .nop := fun m x rest _ => decode_implied rfl m x rest
theorem xba : Statement .xba := fun m x rest _ => decode_implied rfl m x rest
theorem cpxAbs (abs : Word) : Statement (.cpxAbs abs) := fun m x rest _ => decode_two rfl m x abs rest
theorem sbcAbs (abs : Word) : Statement (.sbcAbs abs) := fun m x rest _ => decode_two rfl m x abs rest
theorem incAbs (abs : Word) : Statement (.incAbs abs) := fun m x rest _ => decode_two rfl m x abs rest
theorem sbcLong (long : Addr) : Statement (.sbcLong long) := fun m x rest _ => decode_three rfl m x long rest
theorem beq (rel : Byte) : Statement (.beq rel) := fun m x rest _ => decode_one rfl m x rel rest
theorem sbcDpIndY (dp : Byte) : Statement (.sbcDpIndY dp) := fun m x rest _ => decode_one rfl m x dp rest
theorem sbcDpInd (dp : Byte) : Statement (.sbcDpInd dp) := fun m x rest _ => decode_one rfl m x dp rest
theorem sbcSrIndY (sr : Byte) : Statement (.sbcSrIndY sr) := fun m x rest _ => decode_one rfl m x sr rest
theorem pea (v : Word) : Statement (.pea v) := fun m x rest _ => decode_two rfl m x v rest
theorem sbcDpX (dp : Byte) : Statement (.sbcDpX dp) := fun m x rest _ => decode_one rfl m x dp rest
theorem incDpX (dp : Byte) : Statement (.incDpX dp) := fun m x rest _ => decode_one rfl m x dp rest
theorem sbcDpIndLongY (dp : Byte) : Statement (.sbcDpIndLongY dp) := fun m x rest _ => decode_one rfl m x dp rest
theorem sed : Statement .sed := fun m x rest _ => decode_implied rfl m x rest
theorem sbcAbsY (abs : Word) : Statement (.sbcAbsY abs) := fun m x rest _ => decode_two rfl m x abs rest
theorem plx : Statement .plx := fun m x rest _ => decode_implied rfl m x rest
theorem xce : Statement .xce := fun m x rest _ => decode_implied rfl m x rest
theorem jsrIndX (abs : Word) : Statement (.jsrIndX abs) := fun m x rest _ => decode_two rfl m x abs rest
theorem sbcAbsX (abs : Word) : Statement (.sbcAbsX abs) := fun m x rest _ => decode_two rfl m x abs rest
theorem incAbsX (abs : Word) : Statement (.incAbsX abs) := fun m x rest _ => decode_two rfl m x abs rest
theorem sbcLongX (long : Addr) : Statement (.sbcLongX long) := fun m x rest _ => decode_three rfl m x long rest

end Sys2Proof.Laws.DecodeEncode
end

