-- ==== Sys2Proof/Tests/Slice0.lean ====
section
/-!
SUPPORT. The model's own tests: ill-formed terms that WellFormed refuses; a word of every opcode, written from
spec/30_encoding.md and spec/opcode_table.json, with the instruction it decodes to; one step for each mnemonic, with the end
state that the row of spec/95_test_vectors.md named in the test gives; a witness for the hypotheses of each statement of
Certificates/Slice0/Obligations.lean.
-/
namespace Sys2Proof.Tests
open Sys2Proof Sys2Proof.Machine

/-! ### Well-formedness: an immediate of the other width is refused (R102) -/

theorem test_wf_ora : Instr.wellFormed true true (.oraImm (.word 0)) = false := by decide
theorem test_wf_and : Instr.wellFormed false true (.andImm (.byte 0)) = false := by decide
theorem test_wf_eor : Instr.wellFormed true false (.eorImm (.word 0)) = false := by decide
theorem test_wf_adc : Instr.wellFormed false false (.adcImm (.byte 0)) = false := by decide
theorem test_wf_bit : Instr.wellFormed true true (.bitImm (.word 0)) = false := by decide
theorem test_wf_lda : Instr.wellFormed false true (.ldaImm (.byte 0)) = false := by decide
theorem test_wf_cmp : Instr.wellFormed true false (.cmpImm (.word 0)) = false := by decide
theorem test_wf_sbc : Instr.wellFormed false false (.sbcImm (.byte 0)) = false := by decide
theorem test_wf_ldy : Instr.wellFormed false true (.ldyImm (.word 0)) = false := by decide
theorem test_wf_ldx : Instr.wellFormed true false (.ldxImm (.byte 0)) = false := by decide
theorem test_wf_cpy : Instr.wellFormed false true (.cpyImm (.word 0)) = false := by decide
theorem test_wf_cpx : Instr.wellFormed true false (.cpxImm (.byte 0)) = false := by decide

/-! ### Decoding: a word of every opcode -/

/-- The opcodes $00 to $0F, operand bytes $85, $9A, $BC in fetch order (R102, R103, R105, R111). -/
theorem test_decode_0x :
    [(decodeTableWord 16 0x8500 == some (.brk 0x85)),
      (decodeTableWord 16 0x8501 == some (.oraDpXInd 0x85)),
      (decodeTableWord 16 0x8502 == some (.cop 0x85)),
      (decodeTableWord 16 0x8503 == some (.oraSr 0x85)),
      (decodeTableWord 16 0x8504 == some (.tsbDp 0x85)),
      (decodeTableWord 16 0x8505 == some (.oraDp 0x85)),
      (decodeTableWord 16 0x8506 == some (.aslDp 0x85)),
      (decodeTableWord 16 0x8507 == some (.oraDpIndLong 0x85)),
      (decodeTableWord 8 0x8 == some .php),
      (decodeTableWord 16 0x8509 == some (.oraImm (.byte 0x85))),
      (decodeTableWord 8 0xA == some .aslAcc),
      (decodeTableWord 8 0xB == some .phd),
      (decodeTableWord 24 0x9A850C == some (.tsbAbs 0x9A85)),
      (decodeTableWord 24 0x9A850D == some (.oraAbs 0x9A85)),
      (decodeTableWord 24 0x9A850E == some (.aslAbs 0x9A85)),
      (decodeTableWord 32 0xBC9A850F == some (.oraLong 0xBC9A85))] = List.replicate 16 true := by decide

/-- The opcodes $10 to $1F, operand bytes $85, $9A, $BC in fetch order (R102, R103, R105, R111). -/
theorem test_decode_1x :
    [(decodeTableWord 16 0x8510 == some (.bpl 0x85)),
      (decodeTableWord 16 0x8511 == some (.oraDpIndY 0x85)),
      (decodeTableWord 16 0x8512 == some (.oraDpInd 0x85)),
      (decodeTableWord 16 0x8513 == some (.oraSrIndY 0x85)),
      (decodeTableWord 16 0x8514 == some (.trbDp 0x85)),
      (decodeTableWord 16 0x8515 == some (.oraDpX 0x85)),
      (decodeTableWord 16 0x8516 == some (.aslDpX 0x85)),
      (decodeTableWord 16 0x8517 == some (.oraDpIndLongY 0x85)),
      (decodeTableWord 8 0x18 == some .clc),
      (decodeTableWord 24 0x9A8519 == some (.oraAbsY 0x9A85)),
      (decodeTableWord 8 0x1A == some .incAcc),
      (decodeTableWord 8 0x1B == some .tcs),
      (decodeTableWord 24 0x9A851C == some (.trbAbs 0x9A85)),
      (decodeTableWord 24 0x9A851D == some (.oraAbsX 0x9A85)),
      (decodeTableWord 24 0x9A851E == some (.aslAbsX 0x9A85)),
      (decodeTableWord 32 0xBC9A851F == some (.oraLongX 0xBC9A85))] = List.replicate 16 true := by decide

/-- The opcodes $20 to $2F, operand bytes $85, $9A, $BC in fetch order (R102, R103, R105, R111). -/
theorem test_decode_2x :
    [(decodeTableWord 24 0x9A8520 == some (.jsrAbs 0x9A85)),
      (decodeTableWord 16 0x8521 == some (.andDpXInd 0x85)),
      (decodeTableWord 32 0xBC9A8522 == some (.jsl 0xBC9A85)),
      (decodeTableWord 16 0x8523 == some (.andSr 0x85)),
      (decodeTableWord 16 0x8524 == some (.bitDp 0x85)),
      (decodeTableWord 16 0x8525 == some (.andDp 0x85)),
      (decodeTableWord 16 0x8526 == some (.rolDp 0x85)),
      (decodeTableWord 16 0x8527 == some (.andDpIndLong 0x85)),
      (decodeTableWord 8 0x28 == some .plp),
      (decodeTableWord 16 0x8529 == some (.andImm (.byte 0x85))),
      (decodeTableWord 8 0x2A == some .rolAcc),
      (decodeTableWord 8 0x2B == some .pld),
      (decodeTableWord 24 0x9A852C == some (.bitAbs 0x9A85)),
      (decodeTableWord 24 0x9A852D == some (.andAbs 0x9A85)),
      (decodeTableWord 24 0x9A852E == some (.rolAbs 0x9A85)),
      (decodeTableWord 32 0xBC9A852F == some (.andLong 0xBC9A85))] = List.replicate 16 true := by decide

/-- The opcodes $30 to $3F, operand bytes $85, $9A, $BC in fetch order (R102, R103, R105, R111). -/
theorem test_decode_3x :
    [(decodeTableWord 16 0x8530 == some (.bmi 0x85)),
      (decodeTableWord 16 0x8531 == some (.andDpIndY 0x85)),
      (decodeTableWord 16 0x8532 == some (.andDpInd 0x85)),
      (decodeTableWord 16 0x8533 == some (.andSrIndY 0x85)),
      (decodeTableWord 16 0x8534 == some (.bitDpX 0x85)),
      (decodeTableWord 16 0x8535 == some (.andDpX 0x85)),
      (decodeTableWord 16 0x8536 == some (.rolDpX 0x85)),
      (decodeTableWord 16 0x8537 == some (.andDpIndLongY 0x85)),
      (decodeTableWord 8 0x38 == some .sec),
      (decodeTableWord 24 0x9A8539 == some (.andAbsY 0x9A85)),
      (decodeTableWord 8 0x3A == some .decAcc),
      (decodeTableWord 8 0x3B == some .tsc),
      (decodeTableWord 24 0x9A853C == some (.bitAbsX 0x9A85)),
      (decodeTableWord 24 0x9A853D == some (.andAbsX 0x9A85)),
      (decodeTableWord 24 0x9A853E == some (.rolAbsX 0x9A85)),
      (decodeTableWord 32 0xBC9A853F == some (.andLongX 0xBC9A85))] = List.replicate 16 true := by decide

/-- The opcodes $40 to $4F, operand bytes $85, $9A, $BC in fetch order (R102, R103, R105, R111). -/
theorem test_decode_4x :
    [(decodeTableWord 8 0x40 == some .rti),
      (decodeTableWord 16 0x8541 == some (.eorDpXInd 0x85)),
      (decodeTableWord 16 0x8542 == some (.wdm 0x85)),
      (decodeTableWord 16 0x8543 == some (.eorSr 0x85)),
      (decodeTableWord 24 0x9A8544 == some (.mvp 0x85 0x9A)),
      (decodeTableWord 16 0x8545 == some (.eorDp 0x85)),
      (decodeTableWord 16 0x8546 == some (.lsrDp 0x85)),
      (decodeTableWord 16 0x8547 == some (.eorDpIndLong 0x85)),
      (decodeTableWord 8 0x48 == some .pha),
      (decodeTableWord 16 0x8549 == some (.eorImm (.byte 0x85))),
      (decodeTableWord 8 0x4A == some .lsrAcc),
      (decodeTableWord 8 0x4B == some .phk),
      (decodeTableWord 24 0x9A854C == some (.jmpAbs 0x9A85)),
      (decodeTableWord 24 0x9A854D == some (.eorAbs 0x9A85)),
      (decodeTableWord 24 0x9A854E == some (.lsrAbs 0x9A85)),
      (decodeTableWord 32 0xBC9A854F == some (.eorLong 0xBC9A85))] = List.replicate 16 true := by decide

/-- The opcodes $50 to $5F, operand bytes $85, $9A, $BC in fetch order (R102, R103, R105, R111). -/
theorem test_decode_5x :
    [(decodeTableWord 16 0x8550 == some (.bvc 0x85)),
      (decodeTableWord 16 0x8551 == some (.eorDpIndY 0x85)),
      (decodeTableWord 16 0x8552 == some (.eorDpInd 0x85)),
      (decodeTableWord 16 0x8553 == some (.eorSrIndY 0x85)),
      (decodeTableWord 24 0x9A8554 == some (.mvn 0x85 0x9A)),
      (decodeTableWord 16 0x8555 == some (.eorDpX 0x85)),
      (decodeTableWord 16 0x8556 == some (.lsrDpX 0x85)),
      (decodeTableWord 16 0x8557 == some (.eorDpIndLongY 0x85)),
      (decodeTableWord 8 0x58 == some .cli),
      (decodeTableWord 24 0x9A8559 == some (.eorAbsY 0x9A85)),
      (decodeTableWord 8 0x5A == some .phy),
      (decodeTableWord 8 0x5B == some .tcd),
      (decodeTableWord 32 0xBC9A855C == some (.jmlLong 0xBC9A85)),
      (decodeTableWord 24 0x9A855D == some (.eorAbsX 0x9A85)),
      (decodeTableWord 24 0x9A855E == some (.lsrAbsX 0x9A85)),
      (decodeTableWord 32 0xBC9A855F == some (.eorLongX 0xBC9A85))] = List.replicate 16 true := by decide

/-- The opcodes $60 to $6F, operand bytes $85, $9A, $BC in fetch order (R102, R103, R105, R111). -/
theorem test_decode_6x :
    [(decodeTableWord 8 0x60 == some .rts),
      (decodeTableWord 16 0x8561 == some (.adcDpXInd 0x85)),
      (decodeTableWord 24 0x9A8562 == some (.per 0x9A85)),
      (decodeTableWord 16 0x8563 == some (.adcSr 0x85)),
      (decodeTableWord 16 0x8564 == some (.stzDp 0x85)),
      (decodeTableWord 16 0x8565 == some (.adcDp 0x85)),
      (decodeTableWord 16 0x8566 == some (.rorDp 0x85)),
      (decodeTableWord 16 0x8567 == some (.adcDpIndLong 0x85)),
      (decodeTableWord 8 0x68 == some .pla),
      (decodeTableWord 16 0x8569 == some (.adcImm (.byte 0x85))),
      (decodeTableWord 8 0x6A == some .rorAcc),
      (decodeTableWord 8 0x6B == some .rtl),
      (decodeTableWord 24 0x9A856C == some (.jmpInd 0x9A85)),
      (decodeTableWord 24 0x9A856D == some (.adcAbs 0x9A85)),
      (decodeTableWord 24 0x9A856E == some (.rorAbs 0x9A85)),
      (decodeTableWord 32 0xBC9A856F == some (.adcLong 0xBC9A85))] = List.replicate 16 true := by decide

/-- The opcodes $70 to $7F, operand bytes $85, $9A, $BC in fetch order (R102, R103, R105, R111). -/
theorem test_decode_7x :
    [(decodeTableWord 16 0x8570 == some (.bvs 0x85)),
      (decodeTableWord 16 0x8571 == some (.adcDpIndY 0x85)),
      (decodeTableWord 16 0x8572 == some (.adcDpInd 0x85)),
      (decodeTableWord 16 0x8573 == some (.adcSrIndY 0x85)),
      (decodeTableWord 16 0x8574 == some (.stzDpX 0x85)),
      (decodeTableWord 16 0x8575 == some (.adcDpX 0x85)),
      (decodeTableWord 16 0x8576 == some (.rorDpX 0x85)),
      (decodeTableWord 16 0x8577 == some (.adcDpIndLongY 0x85)),
      (decodeTableWord 8 0x78 == some .sei),
      (decodeTableWord 24 0x9A8579 == some (.adcAbsY 0x9A85)),
      (decodeTableWord 8 0x7A == some .ply),
      (decodeTableWord 8 0x7B == some .tdc),
      (decodeTableWord 24 0x9A857C == some (.jmpIndX 0x9A85)),
      (decodeTableWord 24 0x9A857D == some (.adcAbsX 0x9A85)),
      (decodeTableWord 24 0x9A857E == some (.rorAbsX 0x9A85)),
      (decodeTableWord 32 0xBC9A857F == some (.adcLongX 0xBC9A85))] = List.replicate 16 true := by decide

/-- The opcodes $80 to $8F, operand bytes $85, $9A, $BC in fetch order (R102, R103, R105, R111). -/
theorem test_decode_8x :
    [(decodeTableWord 16 0x8580 == some (.bra 0x85)),
      (decodeTableWord 16 0x8581 == some (.staDpXInd 0x85)),
      (decodeTableWord 24 0x9A8582 == some (.brl 0x9A85)),
      (decodeTableWord 16 0x8583 == some (.staSr 0x85)),
      (decodeTableWord 16 0x8584 == some (.styDp 0x85)),
      (decodeTableWord 16 0x8585 == some (.staDp 0x85)),
      (decodeTableWord 16 0x8586 == some (.stxDp 0x85)),
      (decodeTableWord 16 0x8587 == some (.staDpIndLong 0x85)),
      (decodeTableWord 8 0x88 == some .dey),
      (decodeTableWord 16 0x8589 == some (.bitImm (.byte 0x85))),
      (decodeTableWord 8 0x8A == some .txa),
      (decodeTableWord 8 0x8B == some .phb),
      (decodeTableWord 24 0x9A858C == some (.styAbs 0x9A85)),
      (decodeTableWord 24 0x9A858D == some (.staAbs 0x9A85)),
      (decodeTableWord 24 0x9A858E == some (.stxAbs 0x9A85)),
      (decodeTableWord 32 0xBC9A858F == some (.staLong 0xBC9A85))] = List.replicate 16 true := by decide

/-- The opcodes $90 to $9F, operand bytes $85, $9A, $BC in fetch order (R102, R103, R105, R111). -/
theorem test_decode_9x :
    [(decodeTableWord 16 0x8590 == some (.bcc 0x85)),
      (decodeTableWord 16 0x8591 == some (.staDpIndY 0x85)),
      (decodeTableWord 16 0x8592 == some (.staDpInd 0x85)),
      (decodeTableWord 16 0x8593 == some (.staSrIndY 0x85)),
      (decodeTableWord 16 0x8594 == some (.styDpX 0x85)),
      (decodeTableWord 16 0x8595 == some (.staDpX 0x85)),
      (decodeTableWord 16 0x8596 == some (.stxDpY 0x85)),
      (decodeTableWord 16 0x8597 == some (.staDpIndLongY 0x85)),
      (decodeTableWord 8 0x98 == some .tya),
      (decodeTableWord 24 0x9A8599 == some (.staAbsY 0x9A85)),
      (decodeTableWord 8 0x9A == some .txs),
      (decodeTableWord 8 0x9B == some .txy),
      (decodeTableWord 24 0x9A859C == some (.stzAbs 0x9A85)),
      (decodeTableWord 24 0x9A859D == some (.staAbsX 0x9A85)),
      (decodeTableWord 24 0x9A859E == some (.stzAbsX 0x9A85)),
      (decodeTableWord 32 0xBC9A859F == some (.staLongX 0xBC9A85))] = List.replicate 16 true := by decide

/-- The opcodes $A0 to $AF, operand bytes $85, $9A, $BC in fetch order (R102, R103, R105, R111). -/
theorem test_decode_Ax :
    [(decodeTableWord 16 0x85A0 == some (.ldyImm (.byte 0x85))),
      (decodeTableWord 16 0x85A1 == some (.ldaDpXInd 0x85)),
      (decodeTableWord 16 0x85A2 == some (.ldxImm (.byte 0x85))),
      (decodeTableWord 16 0x85A3 == some (.ldaSr 0x85)),
      (decodeTableWord 16 0x85A4 == some (.ldyDp 0x85)),
      (decodeTableWord 16 0x85A5 == some (.ldaDp 0x85)),
      (decodeTableWord 16 0x85A6 == some (.ldxDp 0x85)),
      (decodeTableWord 16 0x85A7 == some (.ldaDpIndLong 0x85)),
      (decodeTableWord 8 0xA8 == some .tay),
      (decodeTableWord 16 0x85A9 == some (.ldaImm (.byte 0x85))),
      (decodeTableWord 8 0xAA == some .tax),
      (decodeTableWord 8 0xAB == some .plb),
      (decodeTableWord 24 0x9A85AC == some (.ldyAbs 0x9A85)),
      (decodeTableWord 24 0x9A85AD == some (.ldaAbs 0x9A85)),
      (decodeTableWord 24 0x9A85AE == some (.ldxAbs 0x9A85)),
      (decodeTableWord 32 0xBC9A85AF == some (.ldaLong 0xBC9A85))] = List.replicate 16 true := by decide

/-- The opcodes $B0 to $BF, operand bytes $85, $9A, $BC in fetch order (R102, R103, R105, R111). -/
theorem test_decode_Bx :
    [(decodeTableWord 16 0x85B0 == some (.bcs 0x85)),
      (decodeTableWord 16 0x85B1 == some (.ldaDpIndY 0x85)),
      (decodeTableWord 16 0x85B2 == some (.ldaDpInd 0x85)),
      (decodeTableWord 16 0x85B3 == some (.ldaSrIndY 0x85)),
      (decodeTableWord 16 0x85B4 == some (.ldyDpX 0x85)),
      (decodeTableWord 16 0x85B5 == some (.ldaDpX 0x85)),
      (decodeTableWord 16 0x85B6 == some (.ldxDpY 0x85)),
      (decodeTableWord 16 0x85B7 == some (.ldaDpIndLongY 0x85)),
      (decodeTableWord 8 0xB8 == some .clv),
      (decodeTableWord 24 0x9A85B9 == some (.ldaAbsY 0x9A85)),
      (decodeTableWord 8 0xBA == some .tsx),
      (decodeTableWord 8 0xBB == some .tyx),
      (decodeTableWord 24 0x9A85BC == some (.ldyAbsX 0x9A85)),
      (decodeTableWord 24 0x9A85BD == some (.ldaAbsX 0x9A85)),
      (decodeTableWord 24 0x9A85BE == some (.ldxAbsY 0x9A85)),
      (decodeTableWord 32 0xBC9A85BF == some (.ldaLongX 0xBC9A85))] = List.replicate 16 true := by decide

/-- The opcodes $C0 to $CF, operand bytes $85, $9A, $BC in fetch order (R102, R103, R105, R111). -/
theorem test_decode_Cx :
    [(decodeTableWord 16 0x85C0 == some (.cpyImm (.byte 0x85))),
      (decodeTableWord 16 0x85C1 == some (.cmpDpXInd 0x85)),
      (decodeTableWord 16 0x85C2 == some (.rep 0x85)),
      (decodeTableWord 16 0x85C3 == some (.cmpSr 0x85)),
      (decodeTableWord 16 0x85C4 == some (.cpyDp 0x85)),
      (decodeTableWord 16 0x85C5 == some (.cmpDp 0x85)),
      (decodeTableWord 16 0x85C6 == some (.decDp 0x85)),
      (decodeTableWord 16 0x85C7 == some (.cmpDpIndLong 0x85)),
      (decodeTableWord 8 0xC8 == some .iny),
      (decodeTableWord 16 0x85C9 == some (.cmpImm (.byte 0x85))),
      (decodeTableWord 8 0xCA == some .dex),
      (decodeTableWord 8 0xCB == some .wai),
      (decodeTableWord 24 0x9A85CC == some (.cpyAbs 0x9A85)),
      (decodeTableWord 24 0x9A85CD == some (.cmpAbs 0x9A85)),
      (decodeTableWord 24 0x9A85CE == some (.decAbs 0x9A85)),
      (decodeTableWord 32 0xBC9A85CF == some (.cmpLong 0xBC9A85))] = List.replicate 16 true := by decide

/-- The opcodes $D0 to $DF, operand bytes $85, $9A, $BC in fetch order (R102, R103, R105, R111). -/
theorem test_decode_Dx :
    [(decodeTableWord 16 0x85D0 == some (.bne 0x85)),
      (decodeTableWord 16 0x85D1 == some (.cmpDpIndY 0x85)),
      (decodeTableWord 16 0x85D2 == some (.cmpDpInd 0x85)),
      (decodeTableWord 16 0x85D3 == some (.cmpSrIndY 0x85)),
      (decodeTableWord 16 0x85D4 == some (.pei 0x85)),
      (decodeTableWord 16 0x85D5 == some (.cmpDpX 0x85)),
      (decodeTableWord 16 0x85D6 == some (.decDpX 0x85)),
      (decodeTableWord 16 0x85D7 == some (.cmpDpIndLongY 0x85)),
      (decodeTableWord 8 0xD8 == some .cld),
      (decodeTableWord 24 0x9A85D9 == some (.cmpAbsY 0x9A85)),
      (decodeTableWord 8 0xDA == some .phx),
      (decodeTableWord 8 0xDB == some .stp),
      (decodeTableWord 24 0x9A85DC == some (.jmlInd 0x9A85)),
      (decodeTableWord 24 0x9A85DD == some (.cmpAbsX 0x9A85)),
      (decodeTableWord 24 0x9A85DE == some (.decAbsX 0x9A85)),
      (decodeTableWord 32 0xBC9A85DF == some (.cmpLongX 0xBC9A85))] = List.replicate 16 true := by decide

/-- The opcodes $E0 to $EF, operand bytes $85, $9A, $BC in fetch order (R102, R103, R105, R111). -/
theorem test_decode_Ex :
    [(decodeTableWord 16 0x85E0 == some (.cpxImm (.byte 0x85))),
      (decodeTableWord 16 0x85E1 == some (.sbcDpXInd 0x85)),
      (decodeTableWord 16 0x85E2 == some (.sep 0x85)),
      (decodeTableWord 16 0x85E3 == some (.sbcSr 0x85)),
      (decodeTableWord 16 0x85E4 == some (.cpxDp 0x85)),
      (decodeTableWord 16 0x85E5 == some (.sbcDp 0x85)),
      (decodeTableWord 16 0x85E6 == some (.incDp 0x85)),
      (decodeTableWord 16 0x85E7 == some (.sbcDpIndLong 0x85)),
      (decodeTableWord 8 0xE8 == some .inx),
      (decodeTableWord 16 0x85E9 == some (.sbcImm (.byte 0x85))),
      (decodeTableWord 8 0xEA == some .nop),
      (decodeTableWord 8 0xEB == some .xba),
      (decodeTableWord 24 0x9A85EC == some (.cpxAbs 0x9A85)),
      (decodeTableWord 24 0x9A85ED == some (.sbcAbs 0x9A85)),
      (decodeTableWord 24 0x9A85EE == some (.incAbs 0x9A85)),
      (decodeTableWord 32 0xBC9A85EF == some (.sbcLong 0xBC9A85))] = List.replicate 16 true := by decide

/-- The opcodes $F0 to $FF, operand bytes $85, $9A, $BC in fetch order (R102, R103, R105, R111). -/
theorem test_decode_Fx :
    [(decodeTableWord 16 0x85F0 == some (.beq 0x85)),
      (decodeTableWord 16 0x85F1 == some (.sbcDpIndY 0x85)),
      (decodeTableWord 16 0x85F2 == some (.sbcDpInd 0x85)),
      (decodeTableWord 16 0x85F3 == some (.sbcSrIndY 0x85)),
      (decodeTableWord 24 0x9A85F4 == some (.pea 0x9A85)),
      (decodeTableWord 16 0x85F5 == some (.sbcDpX 0x85)),
      (decodeTableWord 16 0x85F6 == some (.incDpX 0x85)),
      (decodeTableWord 16 0x85F7 == some (.sbcDpIndLongY 0x85)),
      (decodeTableWord 8 0xF8 == some .sed),
      (decodeTableWord 24 0x9A85F9 == some (.sbcAbsY 0x9A85)),
      (decodeTableWord 8 0xFA == some .plx),
      (decodeTableWord 8 0xFB == some .xce),
      (decodeTableWord 24 0x9A85FC == some (.jsrIndX 0x9A85)),
      (decodeTableWord 24 0x9A85FD == some (.sbcAbsX 0x9A85)),
      (decodeTableWord 24 0x9A85FE == some (.incAbsX 0x9A85)),
      (decodeTableWord 32 0xBC9A85FF == some (.sbcLongX 0xBC9A85))] = List.replicate 16 true := by decide

/-- The twelve immediates with 16-bit widths: three bytes, the low byte first (R102, R103). -/
theorem test_decode_wide :
    decode false true [0x09, 0x85, 0x9A] = .ok (.oraImm (.word 0x9A85), []) ∧
    decode false true [0x29, 0x85, 0x9A] = .ok (.andImm (.word 0x9A85), []) ∧
    decode false true [0x49, 0x85, 0x9A] = .ok (.eorImm (.word 0x9A85), []) ∧
    decode false true [0x69, 0x85, 0x9A] = .ok (.adcImm (.word 0x9A85), []) ∧
    decode false true [0x89, 0x85, 0x9A] = .ok (.bitImm (.word 0x9A85), []) ∧
    decode false true [0xA9, 0x85, 0x9A] = .ok (.ldaImm (.word 0x9A85), []) ∧
    decode false true [0xC9, 0x85, 0x9A] = .ok (.cmpImm (.word 0x9A85), []) ∧
    decode false true [0xE9, 0x85, 0x9A] = .ok (.sbcImm (.word 0x9A85), []) ∧
    decode true false [0xA0, 0x85, 0x9A] = .ok (.ldyImm (.word 0x9A85), []) ∧
    decode true false [0xA2, 0x85, 0x9A] = .ok (.ldxImm (.word 0x9A85), []) ∧
    decode true false [0xC0, 0x85, 0x9A] = .ok (.cpyImm (.word 0x9A85), []) ∧
    decode true false [0xE0, 0x85, 0x9A] = .ok (.cpxImm (.word 0x9A85), []) :=
  ⟨rfl, rfl, rfl, rfl, rfl, rfl, rfl, rfl, rfl, rfl, rfl, rfl⟩

/-- A truncated instruction is refused by name. -/
theorem test_decode_truncated : decode true true [0xAD, 0x85] = .error .truncated := rfl

/-! ### One step for each mnemonic -/

/-- The default start state of spec/95_test_vectors.md section 2, at `bank:pc`, with its instruction bytes and its data. -/
def start (bank : Byte) (pc : Word) (code : List Byte) (data : List (Addr × Byte)) : State :=
  { State.reset with
    e := false
    p := 0x30
    s := 0x01FF
    pbr := bank
    pc := pc
    mem := data.foldl (fun m c => m.set c.1.toNat c.2) (placeBytes [] (bankAddr bank pc) 0 code) }

/-- One step answers a next state, and it passes the check. -/
def after (s : State) (check : State → Bool) : Bool :=
  match step s with
  | .next t => check t
  | _ => false

theorem test_adc_v2_1 : after { start 0x00 0x8000 [0x69, 0x22] [] with p := 0x31, c := 0x5510 }
    (fun t => t.p == 0x30 && t.c == 0x5533 && t.pc == 0x8002) = true := by decide

theorem test_and_v4_2 : after { start 0x00 0x8000 [0x29, 0x0F] [] with c := 0x12F0 }
    (fun t => t.p == 0x32 && t.c == 0x1200 && t.pc == 0x8002) = true := by decide

theorem test_asl_v5_4 : after { start 0x00 0x8000 [0x0E, 0x00, 0x30] [(0x003000, 0x80), (0x003001, 0xC0)] with p := 0x10 }
    (fun t => t.p == 0x91 && t.pc == 0x8003 && t.byteAt 0x003001 == 0x81 && t.byteAt 0x003000 == 0x00) = true := by decide

theorem test_bcc_v7_7 : after (start 0x00 0x8000 [0x90, 0x10] [])
    (fun t => t.pc == 0x8012) = true := by decide

theorem test_bcs_v7_8 : after (start 0x00 0x8000 [0xB0, 0x10] [])
    (fun t => t.pc == 0x8002) = true := by decide

theorem test_beq_v7_10 : after (start 0x00 0x8000 [0xF0, 0x10] [])
    (fun t => t.pc == 0x8002) = true := by decide

theorem test_bit_v10_1 : after { start 0x00 0x8000 [0x24, 0x10] [(0x000010, 0xC0)] with c := 0x000F }
    (fun t => t.p == 0xF2 && t.pc == 0x8002) = true := by decide

theorem test_bmi_v7_3 : after { start 0x00 0x8000 [0x30, 0x10] [] with p := 0xB0 }
    (fun t => t.pc == 0x8012) = true := by decide

theorem test_bne_v7_9 : after (start 0x00 0x8000 [0xD0, 0x10] [])
    (fun t => t.pc == 0x8012) = true := by decide

theorem test_bpl_v7_1 : after (start 0x00 0x8000 [0x10, 0x10] [])
    (fun t => t.pc == 0x8012) = true := by decide

theorem test_bra_v7_16 : after (start 0x00 0x0000 [0x80, 0xFD] [])
    (fun t => t.pc == 0xFFFF) = true := by decide

theorem test_brk_v11_1 : after { start 0x01 0x8000 [0x00, 0xFF] [(0x00FFE6, 0x00), (0x00FFE7, 0x90)] with p := 0x28 }
    (fun t => t.p == 0x24 && t.s == 0x01FB && t.pbr == 0x00 && t.pc == 0x9000 && t.byteAt 0x0001FF == 0x01 && t.byteAt 0x0001FE == 0x80 && t.byteAt 0x0001FD == 0x02 && t.byteAt 0x0001FC == 0x28) = true := by decide

theorem test_brl_v7_18 : after (start 0x00 0x8000 [0x82, 0x00, 0x80] [])
    (fun t => t.pc == 0x0003) = true := by decide

theorem test_bvc_v7_4 : after (start 0x00 0x8000 [0x50, 0x10] [])
    (fun t => t.pc == 0x8012) = true := by decide

theorem test_bvs_v7_5 : after (start 0x00 0x8000 [0x70, 0x10] [])
    (fun t => t.pc == 0x8002) = true := by decide

theorem test_clc_v10_10 : after { start 0x00 0x8000 [0x18] [] with p := 0xFF }
    (fun t => t.p == 0xFE && t.pc == 0x8001) = true := by decide

theorem test_cld_v10_12 : after { start 0x00 0x8000 [0xD8] [] with p := 0xFF }
    (fun t => t.p == 0xF7 && t.pc == 0x8001) = true := by decide

theorem test_cli_v10_14 : after { start 0x00 0x8000 [0x58] [] with p := 0xFF }
    (fun t => t.p == 0xFB && t.pc == 0x8001) = true := by decide

theorem test_clv_v10_16 : after { start 0x00 0x8000 [0xB8] [] with p := 0xFF }
    (fun t => t.p == 0xBF && t.pc == 0x8001) = true := by decide

theorem test_cmp_v6_12 : after { start 0x00 0x8000 [0xC9, 0x20] [] with p := 0x70, c := 0x0010 }
    (fun t => t.p == 0xF0 && t.pc == 0x8002) = true := by decide

theorem test_cop_v11_4 : after { start 0x12 0x8000 [0x02, 0x10] [(0x00FFE4, 0x00), (0x00FFE5, 0xE0)] with p := 0x00, s := 0x1FFF }
    (fun t => t.p == 0x04 && t.s == 0x1FFB && t.pbr == 0x00 && t.pc == 0xE000 && t.byteAt 0x001FFF == 0x12 && t.byteAt 0x001FFE == 0x80 && t.byteAt 0x001FFD == 0x02 && t.byteAt 0x001FFC == 0x00) = true := by decide

theorem test_cpx_v6_18 : after { start 0x00 0x8000 [0xE0, 0x00, 0x10] [] with p := 0x20, x := 0x1000 }
    (fun t => t.p == 0x23 && t.pc == 0x8003) = true := by decide

theorem test_cpy_v6_20 : after { start 0x00 0x8000 [0xC0, 0x06] [] with y := 0x0005 }
    (fun t => t.p == 0xB0 && t.pc == 0x8002) = true := by decide

theorem test_dec_v6_5 : after { start 0x00 0x8000 [0x3A] [] with p := 0x10 }
    (fun t => t.p == 0x90 && t.c == 0xFFFF && t.pc == 0x8001) = true := by decide

theorem test_dex_v6_10 : after (start 0x00 0x8000 [0xCA] [])
    (fun t => t.p == 0xB0 && t.x == 0x00FF && t.pc == 0x8001) = true := by decide

theorem test_dey_v6_11 : after { start 0x00 0x8000 [0x88] [] with p := 0x20 }
    (fun t => t.p == 0xA0 && t.y == 0xFFFF && t.pc == 0x8001) = true := by decide

theorem test_eor_v4_7 : after { start 0x00 0x8000 [0x49, 0xAA] [] with c := 0x00AA }
    (fun t => t.p == 0x32 && t.c == 0x0000 && t.pc == 0x8002) = true := by decide

theorem test_inc_v6_1 : after { start 0x00 0x8000 [0x1A] [] with p := 0x31, c := 0x12FF }
    (fun t => t.p == 0x33 && t.c == 0x1200 && t.pc == 0x8001) = true := by decide

theorem test_inx_v6_7 : after { start 0x00 0x8000 [0xE8] [] with x := 0x00FF }
    (fun t => t.p == 0x32 && t.x == 0x0000 && t.pc == 0x8001) = true := by decide

theorem test_iny_v6_9 : after { start 0x00 0x8000 [0xC8] [] with p := 0x20, y := 0xFFFF }
    (fun t => t.p == 0x22 && t.y == 0x0000 && t.pc == 0x8001) = true := by decide

theorem test_jml_v7_23 : after { start 0x00 0x8000 [0x5C, 0x56, 0x34, 0x12] [] with dbr := 0x7E }
    (fun t => t.pbr == 0x12 && t.pc == 0x3456) = true := by decide

theorem test_jmp_v7_19 : after { start 0x03 0x8000 [0x4C, 0x00, 0x90] [] with dbr := 0x7E }
    (fun t => t.pc == 0x9000) = true := by decide

theorem test_jsl_v7_28 : after { start 0x01 0x4000 [0x22, 0x00, 0x80, 0x7E] [] with s := 0x1FFF }
    (fun t => t.s == 0x1FFC && t.pbr == 0x7E && t.pc == 0x8000 && t.byteAt 0x001FFF == 0x01 && t.byteAt 0x001FFE == 0x40 && t.byteAt 0x001FFD == 0x03) = true := by decide

theorem test_jsr_v7_25 : after (start 0x00 0x8000 [0x20, 0x00, 0x90] [])
    (fun t => t.s == 0x01FD && t.pc == 0x9000 && t.byteAt 0x0001FF == 0x80 && t.byteAt 0x0001FE == 0x02) = true := by decide

theorem test_lda_v1_1 : after { start 0x00 0x8000 [0xA9, 0x00] [] with c := 0x12FF }
    (fun t => t.p == 0x32 && t.c == 0x1200 && t.pc == 0x8002) = true := by decide

theorem test_ldx_v1_7 : after { start 0x00 0x8000 [0xA2, 0x00, 0x80] [] with p := 0x20 }
    (fun t => t.p == 0xA0 && t.x == 0x8000 && t.pc == 0x8003) = true := by decide

theorem test_ldy_v1_10 : after { start 0x00 0x8000 [0xBC, 0x00, 0x30] [(0x003002, 0xFF), (0x003003, 0xFF)] with p := 0x20, x := 0x0002 }
    (fun t => t.p == 0xA0 && t.y == 0xFFFF && t.pc == 0x8003) = true := by decide

theorem test_lsr_v5_5 : after { start 0x00 0x8000 [0x4A] [] with p := 0x10, c := 0x8001 }
    (fun t => t.p == 0x11 && t.c == 0x4000 && t.pc == 0x8001) = true := by decide

theorem test_mvn_v9_3 : after { start 0x00 0x8000 [0x54, 0x00, 0x00] [(0x001000, 0x5A)] with p := 0x20, x := 0x1000, y := 0x2000, dbr := 0x12 }
    (fun t => t.c == 0xFFFF && t.x == 0x1001 && t.y == 0x2001 && t.dbr == 0x00 && t.pc == 0x8003 && t.byteAt 0x002000 == 0x5A) = true := by decide

theorem test_nop_v11_17 : after (start 0x00 0x8000 [0xEA] [])
    (fun t => t.pc == 0x8001) = true := by decide

theorem test_ora_v4_4 : after { start 0x00 0x8000 [0x09, 0x01, 0x80] [] with p := 0x10, c := 0x0F00 }
    (fun t => t.p == 0x90 && t.c == 0x8F01 && t.pc == 0x8003) = true := by decide

theorem test_pea_v11_18 : after (start 0x00 0x8000 [0xF4, 0x34, 0x12] [])
    (fun t => t.s == 0x01FD && t.pc == 0x8003 && t.byteAt 0x0001FF == 0x12 && t.byteAt 0x0001FE == 0x34) = true := by decide

theorem test_pei_v11_19 : after { start 0x00 0x8000 [0xD4, 0x10] [(0x000110, 0x78), (0x000111, 0x56)] with d := 0x0100 }
    (fun t => t.s == 0x01FD && t.pc == 0x8002 && t.byteAt 0x0001FF == 0x56 && t.byteAt 0x0001FE == 0x78) = true := by decide

theorem test_per_v11_21 : after (start 0x00 0x8000 [0x62, 0x10, 0x00] [])
    (fun t => t.s == 0x01FD && t.pc == 0x8003 && t.byteAt 0x0001FF == 0x80 && t.byteAt 0x0001FE == 0x13) = true := by decide

theorem test_pha_v8_1 : after { start 0x00 0x8000 [0x48] [] with p := 0x10, c := 0x1234 }
    (fun t => t.s == 0x01FD && t.pc == 0x8001 && t.byteAt 0x0001FF == 0x12 && t.byteAt 0x0001FE == 0x34) = true := by decide

theorem test_phb_v8_5 : after { start 0x00 0x8000 [0x8B] [] with dbr := 0x7E }
    (fun t => t.s == 0x01FE && t.pc == 0x8001 && t.byteAt 0x0001FF == 0x7E) = true := by decide

theorem test_phd_v8_6 : after { start 0x00 0x8000 [0x0B] [] with d := 0x2100 }
    (fun t => t.s == 0x01FD && t.pc == 0x8001 && t.byteAt 0x0001FF == 0x21 && t.byteAt 0x0001FE == 0x00) = true := by decide

theorem test_phk_v8_7 : after (start 0x03 0x8000 [0x4B] [])
    (fun t => t.s == 0x01FE && t.pc == 0x8001 && t.byteAt 0x0001FF == 0x03) = true := by decide

theorem test_php_v8_8 : after { start 0x00 0x8000 [0x08] [] with p := 0xA5 }
    (fun t => t.s == 0x01FE && t.pc == 0x8001 && t.byteAt 0x0001FF == 0xA5) = true := by decide

theorem test_phx_v8_3 : after { start 0x00 0x8000 [0xDA] [] with p := 0x20, x := 0xBEEF, s := 0x0000 }
    (fun t => t.s == 0xFFFE && t.pc == 0x8001 && t.byteAt 0x000000 == 0xBE && t.byteAt 0x00FFFF == 0xEF) = true := by decide

theorem test_phy_v8_4 : after { start 0x00 0x8000 [0x5A] [] with y := 0x0042 }
    (fun t => t.s == 0x01FE && t.pc == 0x8001 && t.byteAt 0x0001FF == 0x42) = true := by decide

theorem test_pla_v8_10 : after { start 0x00 0x8000 [0x68] [(0x0001FF, 0x00)] with c := 0x5555, s := 0x01FE }
    (fun t => t.p == 0x32 && t.c == 0x5500 && t.s == 0x01FF && t.pc == 0x8001) = true := by decide

theorem test_plb_v8_14 : after { start 0x00 0x8000 [0xAB] [(0x0001FF, 0x80)] with p := 0x00, s := 0x01FE }
    (fun t => t.p == 0x80 && t.s == 0x01FF && t.dbr == 0x80 && t.pc == 0x8001) = true := by decide

theorem test_pld_v8_16 : after { start 0x00 0x8000 [0x2B] [(0x0001FE, 0x00), (0x0001FF, 0x00)] with s := 0x01FD, d := 0x1234 }
    (fun t => t.p == 0x32 && t.s == 0x01FF && t.d == 0x0000 && t.pc == 0x8001) = true := by decide

theorem test_plp_v8_17 : after { start 0x00 0x8000 [0x28] [(0x0001FF, 0xD3)] with p := 0x00, x := 0x1234, y := 0xABCD, s := 0x01FE }
    (fun t => t.p == 0xD3 && t.x == 0x0034 && t.y == 0x00CD && t.s == 0x01FF && t.pc == 0x8001) = true := by decide

theorem test_plx_v8_12 : after { start 0x00 0x8000 [0xFA] [(0x000FFF, 0xEF), (0x001000, 0xBE)] with p := 0x20, s := 0x0FFE }
    (fun t => t.p == 0xA0 && t.x == 0xBEEF && t.s == 0x1000 && t.pc == 0x8001) = true := by decide

theorem test_ply_v8_13 : after { start 0x00 0x8000 [0x7A] [(0x0001FF, 0x80)] with s := 0x01FE }
    (fun t => t.p == 0xB0 && t.y == 0x0080 && t.s == 0x01FF && t.pc == 0x8001) = true := by decide

theorem test_rep_v10_17 : after { start 0x00 0x8000 [0xC2, 0x30] [] with p := 0x34 }
    (fun t => t.p == 0x04 && t.pc == 0x8002) = true := by decide

theorem test_rol_v5_8 : after { start 0x00 0x8000 [0x2A] [] with p := 0x31, c := 0x0040 }
    (fun t => t.p == 0xB0 && t.c == 0x0081 && t.pc == 0x8001) = true := by decide

theorem test_ror_v5_11 : after { start 0x00 0x8000 [0x6A] [] with p := 0x31, c := 0x0001 }
    (fun t => t.p == 0xB1 && t.c == 0x0080 && t.pc == 0x8001) = true := by decide

theorem test_rti_v8_20 : after { start 0x00 0x8000 [0x40] [(0x0001FC, 0x00), (0x0001FD, 0x05), (0x0001FE, 0x80), (0x0001FF, 0x01)] with p := 0x34, s := 0x01FB }
    (fun t => t.p == 0x00 && t.s == 0x01FF && t.pbr == 0x01 && t.pc == 0x8005) = true := by decide

theorem test_rtl_v8_23 : after { start 0x00 0x8000 [0x6B] [(0x001FFD, 0x03), (0x001FFE, 0x40), (0x001FFF, 0x01)] with s := 0x1FFC }
    (fun t => t.s == 0x1FFF && t.pbr == 0x01 && t.pc == 0x4004) = true := by decide

theorem test_rts_v8_22 : after { start 0x00 0x8000 [0x60] [(0x0001FE, 0xFF), (0x0001FF, 0xFF)] with s := 0x01FD }
    (fun t => t.s == 0x01FF && t.pc == 0x0000) = true := by decide

theorem test_sbc_v2_14 : after { start 0x00 0x8000 [0xE9, 0x01] [] with p := 0x31, c := 0x5500 }
    (fun t => t.p == 0xB0 && t.c == 0x55FF && t.pc == 0x8002) = true := by decide

theorem test_sec_v10_11 : after { start 0x00 0x8000 [0x38] [] with p := 0x00 }
    (fun t => t.p == 0x01 && t.pc == 0x8001) = true := by decide

theorem test_sed_v10_13 : after { start 0x00 0x8000 [0xF8] [] with p := 0x00 }
    (fun t => t.p == 0x08 && t.pc == 0x8001) = true := by decide

theorem test_sei_v10_15 : after { start 0x00 0x8000 [0x78] [] with p := 0x00 }
    (fun t => t.p == 0x04 && t.pc == 0x8001) = true := by decide

theorem test_sep_v10_19 : after { start 0x00 0x8000 [0xE2, 0x30] [] with p := 0x00, c := 0xABCD, x := 0x1234, y := 0x5678 }
    (fun t => t.p == 0x30 && t.x == 0x0034 && t.y == 0x0078 && t.pc == 0x8002) = true := by decide

theorem test_sta_v1_11 : after { start 0x00 0x8000 [0x8D, 0x00, 0x20] [] with p := 0x10, c := 0x1234, dbr := 0x7E }
    (fun t => t.pc == 0x8003 && t.byteAt 0x7E2000 == 0x34 && t.byteAt 0x7E2001 == 0x12) = true := by decide

theorem test_stp_v11_7 : after (start 0x00 0x8000 [0xDB] [])
    (fun t => t.pc == 0x8001 && t.run == .stopped) = true := by decide

theorem test_stx_v1_14 : after { start 0x00 0x8000 [0x96, 0x10] [] with x := 0x00AB, y := 0x0002 }
    (fun t => t.pc == 0x8002 && t.byteAt 0x000012 == 0xAB) = true := by decide

theorem test_sty_v1_15 : after { start 0x00 0x8000 [0x8C, 0x00, 0x30] [] with p := 0x20, y := 0xBEEF }
    (fun t => t.pc == 0x8003 && t.byteAt 0x003000 == 0xEF && t.byteAt 0x003001 == 0xBE) = true := by decide

theorem test_stz_v1_16 : after { start 0x00 0x8000 [0x9C, 0x00, 0x30] [] with p := 0x10 }
    (fun t => t.pc == 0x8003 && t.byteAt 0x003000 == 0x00 && t.byteAt 0x003001 == 0x00) = true := by decide

theorem test_tax_v12_2 : after { start 0x00 0x8000 [0xAA] [] with c := 0x12FF }
    (fun t => t.p == 0xB0 && t.x == 0x00FF && t.pc == 0x8001) = true := by decide

theorem test_tay_v12_4 : after { start 0x00 0x8000 [0xA8] [] with p := 0x00, c := 0x8000 }
    (fun t => t.p == 0x80 && t.y == 0x8000 && t.pc == 0x8001) = true := by decide

theorem test_tcd_v12_13 : after { start 0x00 0x8000 [0x5B] [] with c := 0x8100 }
    (fun t => t.p == 0xB0 && t.d == 0x8100 && t.pc == 0x8001) = true := by decide

theorem test_tcs_v12_16 : after { start 0x00 0x8000 [0x1B] [] with p := 0xB0, s := 0x1FFF }
    (fun t => t.s == 0x0000 && t.pc == 0x8001) = true := by decide

theorem test_tdc_v12_15 : after { start 0x00 0x8000 [0x7B] [] with c := 0x1234, d := 0x8000 }
    (fun t => t.p == 0xB0 && t.c == 0x8000 && t.pc == 0x8001) = true := by decide

theorem test_trb_v10_9 : after { start 0x00 0x8000 [0x1C, 0x00, 0x30] [(0x003000, 0x00)] with c := 0x00FF }
    (fun t => t.p == 0x32 && t.pc == 0x8003 && t.byteAt 0x003000 == 0x00) = true := by decide

theorem test_tsb_v10_7 : after { start 0x00 0x8000 [0x04, 0x10] [(0x000010, 0x0F), (0x000011, 0x00)] with p := 0xD0, c := 0x00F0 }
    (fun t => t.p == 0xD2 && t.pc == 0x8002 && t.byteAt 0x000011 == 0x00 && t.byteAt 0x000010 == 0xFF) = true := by decide

theorem test_tsc_v12_19 : after { start 0x00 0x8000 [0x3B] [] with s := 0x8000 }
    (fun t => t.p == 0xB0 && t.c == 0x8000 && t.pc == 0x8001) = true := by decide

theorem test_tsx_v12_9 : after { start 0x00 0x8000 [0xBA] [] with e := true }
    (fun t => t.p == 0xB0 && t.x == 0x00FF && t.pc == 0x8001) = true := by decide

theorem test_txa_v12_6 : after { start 0x00 0x8000 [0x8A] [] with p := 0x20, c := 0x5500, x := 0x1280 }
    (fun t => t.p == 0xA0 && t.c == 0x5580 && t.pc == 0x8001) = true := by decide

theorem test_txs_v12_10 : after { start 0x00 0x8000 [0x9A] [] with p := 0xA0, s := 0x1FFF }
    (fun t => t.s == 0x0000 && t.pc == 0x8001) = true := by decide

theorem test_txy_v12_20 : after { start 0x00 0x8000 [0x9B] [] with p := 0x20, x := 0x8001 }
    (fun t => t.p == 0xA0 && t.y == 0x8001 && t.pc == 0x8001) = true := by decide

theorem test_tya_v12_7 : after { start 0x00 0x8000 [0x98] [] with p := 0x00, c := 0x1234 }
    (fun t => t.p == 0x02 && t.c == 0x0000 && t.pc == 0x8001) = true := by decide

theorem test_tyx_v12_21 : after { start 0x00 0x8000 [0xBB] [] with x := 0x0005 }
    (fun t => t.p == 0x32 && t.x == 0x0000 && t.pc == 0x8001) = true := by decide

theorem test_wai_v11_6 : after (start 0x00 0x8000 [0xCB] [])
    (fun t => t.pc == 0x8001 && t.run == .waiting) = true := by decide

theorem test_wdm_v11_16 : after { start 0x00 0x8000 [0x42, 0x00] [] with p := 0xFF }
    (fun t => t.pc == 0x8002) = true := by decide

theorem test_xba_v11_14 : after { start 0x00 0x8000 [0xEB] [] with p := 0x10, c := 0x0080 }
    (fun t => t.p == 0x12 && t.c == 0x8000 && t.pc == 0x8001) = true := by decide

theorem test_xce_v11_10 : after { start 0x00 0x8000 [0xFB] [] with p := 0x01, c := 0xABCD, x := 0x1234, y := 0x5678, s := 0x1FF0, d := 0x2100, dbr := 0x7E }
    (fun t => t.e == true && t.p == 0x30 && t.x == 0x0034 && t.y == 0x0078 && t.s == 0x01F0 && t.pc == 0x8001) = true := by decide

/-- The first byte of the three-byte move of V9.2 run downwards (R301). -/
theorem test_mvp_r301 : after { start 0x00 0x8000 [0x44, 0x7F, 0x7E] [(0x7E1002, 0xCC)] with
      p := 0x20, c := 0x0002, x := 0x1002, y := 0x2002 }
    (fun t => t.c == 0x0001 && t.x == 0x1001 && t.y == 0x2001 && t.dbr == 0x7F && t.pc == 0x8000 &&
      t.byteAt 0x7F2002 == 0xCC) = true := by decide

/-! ### Interrupts and reset -/

theorem test_irq_v14_1 : after { start 0x12 0x8000 [0xEA] [(0x00FFEE, 0x00), (0x00FFEF, 0xA0)] with
      p := 0x00, s := 0x1FFF, inputs := [{ Inputs.quiet with irq := true }] }
    (fun t => t.s == 0x1FFB && t.pbr == 0x00 && t.pc == 0xA000 && t.p == 0x04 && t.byteAt 0x001FFF == 0x12 &&
      t.byteAt 0x001FFE == 0x80) = true := by decide

theorem test_irq_masked_v14_2 : after { start 0x00 0x8000 [0xEA] [] with
      p := 0x04, inputs := [{ Inputs.quiet with irq := true }] }
    (fun t => t.pc == 0x8001 && t.p == 0x04) = true := by decide

theorem test_nmi_v14_4 : after { start 0x00 0x8000 [0xEA] [(0x00FFEA, 0x00), (0x00FFEB, 0xB0)] with
      p := 0x04, inputs := [{ Inputs.quiet with nmiEdge := true }] }
    (fun t => t.s == 0x01FB && t.pc == 0xB000 && t.nmiPending == false && t.byteAt 0x0001FC == 0x04) = true := by decide

/-- The start state of V14.9, with ROM at the RESET vector (R452) and RAM elsewhere. -/
def resetting : State := { start 0x12 0x8000 [0xEA] [(0x00FFFC, 0x00), (0x00FFFD, 0xC0)] with
  p := 0xCB, d := 0x2100, dbr := 0x7E, inputs := [{ Inputs.quiet with reset := true }]
  memMap := { base := 0x00FFFC, size := 2, kind := .rom } :: State.reset.memMap }

theorem test_reset_v14_9 : after resetting (fun t => t.d == 0x0000 && t.dbr == 0x00 && t.pbr == 0x00 && t.e) = true := by
  decide

/-- The RESET vector of V14.9 is in ROM, so that the reset finds it (R450, R452). -/
theorem test_reset_pc_v14_9 {t : State} (h : step resetting = .next t) : t.pc = 0xC000 := by
  have e := doReset_ok (finish_next.1 (show finish (doReset resetting.sample) = .next t from h))
  have hk : t.memMap = resetting.memMap := by rw [e]; rfl
  have hb : ∀ a : Addr, kindAt resetting.memMap a.toNat = some .rom → t.seen .vector a = resetting.byteAt a := by
    intro a ha
    rw [State.RamOrRom.seen (.inr (by rw [hk]; exact ha)), State.byteAt, congrArg State.mem e]
    exact get_redrawRam_other (by rw [show resetting.sample.memMap = resetting.memMap from rfl, ha]; decide) _ _
  rw [congrArg State.pc e]
  show word (t.seen .vector 0x00FFFD) (t.seen .vector 0x00FFFC) = 0xC000
  rw [hb _ (by decide), hb _ (by decide)]
  decide

/-- A platform with vectors of its own: COP goes where they say (R5, R410). -/
theorem test_vectors_r410 : after { start 0x00 0x8000 [0x02, 0x10] [(0x001234, 0x00), (0x001235, 0xA0)] with
      vectors := { Vectors.defaults with nativeCop := 0x1234 } } (fun t => t.pc == 0xA000 && t.pbr == 0x00) = true := by decide

/-- The word of a vector at $00:FFFF wraps to $00:0000, whatever $01:0000 holds (R410, D2). -/
theorem test_vector_wrap_d2 : after { start 0x00 0x8000 [0x00, 0x10]
      [(0x00FFFF, 0x34), (0x000000, 0xA0), (0x010000, 0x55)] with
      vectors := { Vectors.defaults with nativeBrk := 0xFFFF } } (fun t => t.pc == 0xA034 && t.pbr == 0x00) = true := by decide

/-- The instruction placed by `withFetchWord` is the next one run: LDA #$85. -/
theorem test_withFetchWord : after (State.reset.withFetchWord 16 0x85A9) (fun t => t.c == 0x0085 && t.pc == 0x0002) =
    true := by decide

/-! ### Witnesses: the hypotheses of each statement hold together of a concrete state -/

/-- A native-mode state at the edges: 16-bit index registers at $FFFF, D at $FFFF, S at $0000. -/
def native : State := { start 0x00 0xFFFD [0xEA] [] with p := 0x00, x := 0xFFFF, y := 0xFFFF, d := 0xFFFF, s := 0x0000 }

/-- An emulation-mode state at the edges: S at $0100, `DL = 0`. -/
def emulation : State := { start 0x00 0x8000 [0xEA] [] with e := true, s := 0x0100, d := 0x1200 }

theorem reset_allRam : State.reset.AllRam := by
  intro a
  show (if (0 : Nat) ≤ a.toNat ∧ a.toNat < 0 + 2 ^ 24 then some RegionKind.ram else none) = some .ram
  have := a.isLt
  rw [if_pos (by omega)]

theorem native_allRam : native.AllRam := reset_allRam

theorem emulation_allRam : emulation.AllRam := reset_allRam

theorem test_witness_EveryInstructionCompletesOnRam : native.AllRam ∧ emulation.AllRam := ⟨native_allRam, emulation_allRam⟩

/-- In a state whose whole memory is RAM every readability and writability premise holds. -/
theorem canRead_of_allRam {s : State} (h : s.AllRam) {k : Access} (ea : EA) (n : Nat) : s.CanRead k ea n := fun _ _ => h.readable _

theorem canWrite_of_allRam {s : State} (h : s.AllRam) (ea : EA) (n : Nat) : s.CanWrite ea n := fun _ _ => h.writable _

theorem test_witness_invariant : native.Inv ∧ emulation.Inv := by decide

theorem test_witness_EncodeThenDecode : Instr.wellFormed false true (.ldaImm (.word 0xFFFF)) = true := by decide

theorem test_witness_DecodeThenEncode : decode true true [0x54, 0x7F, 0x7E, 0xEA] = .ok (.mvn 0x7F 0x7E, [0xEA]) := rfl

theorem test_witness_StepRunsDecodedInstruction :
    native.run = .running ∧ native.nmiPending = false ∧ native.input.abort = false ∧ native.input.reset = false ∧
    native.input.nmiEdge = false ∧ (native.input.irq = true → native.flagI = true) ∧
    1 = lengthOf native.flagM native.flagX (State.seen { native with inputs := [], draw := 1 } .fetch (native.fetchAddr 0)) ∧
    native.CanRead .fetch native.fetchAddr 1 ∧
    decode native.flagM native.flagX (State.codeBytes { native with inputs := [], draw := 1 } 1) = .ok (.nop, []) :=
  ⟨rfl, rfl, rfl, rfl, rfl, by decide, by decide, canRead_of_allRam native_allRam _ _, rfl⟩

/-- `native` with one boundary of inputs to come. -/
def asserting (i : Inputs) : State := { native with inputs := [i] }

theorem test_witness_AssertedAbortRefused : (asserting { Inputs.quiet with abort := true }).input.abort = true := by decide

theorem test_witness_ResetLineResets :
    (let s := asserting { Inputs.quiet with reset := true }
     s.input.abort = false ∧ s.input.reset = true ∧ s.CanRead .vector (vectorEA s.vectors.emuReset) 2) ∧
    resetting.input.abort = false ∧ resetting.input.reset = true ∧
    resetting.CanRead .vector (vectorEA resetting.vectors.emuReset) 2 ∧
    ¬resetting.Writable 0x00FFFC ∧ ¬resetting.Writable 0x00FFFD ∧ resetting.Writable 0x00FFFB :=
  ⟨⟨rfl, rfl, canRead_of_allRam (s := asserting _) reset_allRam _ _⟩, rfl, rfl, by decide, by decide, by decide, by decide⟩

theorem test_witness_WaitAndStopHoldTheCore :
    let masked := { asserting { Inputs.quiet with irq := true } with run := .waiting, p := 0x04 }
    native.input.abort = false ∧ native.input.reset = false ∧ ({ native with run := .stopped } : State).run = .stopped ∧
    ({ native with run := .waiting } : State).run = .waiting ∧ native.nmiPending = false ∧ native.input.nmiEdge = false ∧
    native.input.irq = false ∧ masked.input.abort = false ∧ masked.input.reset = false ∧ masked.run = .waiting ∧
    masked.nmiPending = false ∧ masked.input.nmiEdge = false ∧ masked.input.irq = true ∧ masked.flagI = true := by decide

theorem canEnter_of_allRam {s : State} (h : s.AllRam) (k : Event) : s.CanEnter k :=
  ⟨canWrite_of_allRam h _ _, canRead_of_allRam h _ _⟩

theorem test_witness_NmiTakenAtBoundary :
    let edge := asserting { Inputs.quiet with nmiEdge := true }
    let latched := { emulation with nmiPending := true, run := .waiting }
    (edge.input.abort = false ∧ edge.input.reset = false ∧ edge.run ≠ .stopped ∧
      (edge.nmiPending = true ∨ edge.input.nmiEdge = true) ∧ edge.CanEnter .nmi) ∧
    (latched.input.abort = false ∧ latched.input.reset = false ∧ latched.run ≠ .stopped ∧
      (latched.nmiPending = true ∨ latched.input.nmiEdge = true) ∧ latched.CanEnter .nmi) :=
  ⟨⟨rfl, rfl, by decide, .inr rfl, canEnter_of_allRam (s := asserting _) reset_allRam _⟩,
    ⟨rfl, rfl, by decide, .inl rfl, canEnter_of_allRam (s := { emulation with nmiPending := true, run := .waiting })
      reset_allRam _⟩⟩

theorem test_witness_IrqTakenAtBoundary :
    let s := asserting { Inputs.quiet with irq := true }
    s.input.abort = false ∧ s.input.reset = false ∧ s.run ≠ .stopped ∧ s.nmiPending = false ∧ s.input.nmiEdge = false ∧
    s.input.irq = true ∧ s.flagI = false ∧ s.CanEnter .irq :=
  ⟨rfl, rfl, by decide, rfl, rfl, rfl, by decide, canEnter_of_allRam (s := asserting _) reset_allRam _⟩

theorem test_witness_BrkAndCopEnter :
    native.CanEnter .brk ∧ native.CanEnter .cop ∧ emulation.CanEnter .brk ∧ emulation.CanEnter .cop :=
  ⟨canEnter_of_allRam native_allRam _, canEnter_of_allRam native_allRam _, canEnter_of_allRam emulation_allRam _,
    canEnter_of_allRam emulation_allRam _⟩

theorem entered_of_allRam {s : State} (h : s.AllRam) (k : Event) (r : Word) : ∃ t, Entered k r s t :=
  let ⟨t, _, e, _⟩ := interrupt_of_canEnter (canEnter_of_allRam h k) r
  ⟨t, e⟩

theorem test_witness_RtiUndoesEntry :
    (∃ t, native.Inv ∧ native.CanWrite native.slot 4 ∧ Entered .irq 0xFFFD native t) ∧
    ∃ t, emulation.Inv ∧ emulation.CanWrite emulation.slot 3 ∧ Entered .brk 0x8002 emulation t :=
  ⟨(entered_of_allRam native_allRam _ _).imp fun _ e =>
      ⟨test_witness_invariant.1, canWrite_of_allRam reset_allRam _ _, e⟩,
    (entered_of_allRam emulation_allRam _ _).imp fun _ e =>
      ⟨test_witness_invariant.2, canWrite_of_allRam reset_allRam _ _, e⟩⟩

theorem test_witness_StepKeepsInvariant : native.WidthsForced ∧ native.StackForced ∧ native.IndexNarrow ∧
    after native (fun t => t.pc == 0xFFFE) = true ∧ emulation.WidthsForced ∧ emulation.StackForced ∧
    emulation.IndexNarrow ∧ after emulation (fun t => t.pc == 0x8001) = true := by decide

theorem test_witness_StepKeepsMemoryCanonical : native.mem.wf = true ∧ after native (fun t => t.pc == 0xFFFE) = true := by
  decide

/-- An instruction's own effect passes the check. -/
def runs (i : Instr) (s : State) (check : State → Bool) : Bool :=
  match exec i s with
  | .next t => check t
  | _ => false

theorem test_witness_OnlyModeInstructionsChangeWidths :
    runs .xce { native with p := 0x01 } (fun t => t.e && t.flagM && t.flagX) = true ∧
    runs .xce emulation (fun t => t.e != emulation.e) = true ∧
    runs (.sep 0x30) native (fun t => t.flagM != native.flagM && t.flagX != native.flagX) = true := by decide

theorem test_witness_BaseAndBankRegisterWriters :
    runs .tcd native (fun t => t.d != native.d) = true ∧
    runs (.mvn 0xFF 0x00) native (fun t => t.dbr != native.dbr) = true ∧
    runs (.jmlLong 0xFF0000) native (fun t => t.pbr != native.pbr) = true := by decide

theorem test_witness_DataRegisterWriters : native.Inv ∧
    runs (.ldaImm (.word 0xFFFF)) native (fun t => t.c != native.c) = true ∧
    runs .incAcc native (fun t => t.c != native.c) = true ∧ runs .inx native (fun t => t.x != native.x) = true ∧
    runs .iny native (fun t => t.y != native.y) = true ∧ runs .phb native (fun t => t.s != native.s) = true := by decide

theorem test_witness_StatusBitWriters :
    runs (.adcImm (.word 0x7FFF)) { native with c := 0x0001 } (fun t => t.flagV && t.flagN) = true ∧
    runs .sed native (fun t => t.flagD) = true ∧ runs .sei native (fun t => t.flagI) = true ∧
    runs .sec native (fun t => t.flagC) = true ∧ runs (.ldaImm (.word 0)) native (fun t => t.flagZ) = true := by decide

theorem test_witness_InstructionsLeaveThePlatformAlone :
    runs .wai native (fun t => t.run == .waiting) = true ∧ runs .stp native (fun t => t.run == .stopped) = true := by
  decide

theorem test_witness_OnlyStoringInstructionsWriteMemory :
    runs (.staLong 0xFFFFFF) { native with c := 0x1234 }
      (fun t => t.byteAt 0xFFFFFF != native.byteAt 0xFFFFFF && t.byteAt 0 != native.byteAt 0) = true := by decide

theorem test_witness_OnlyStoringInstructionsWriteDevices :
    runs (.staAbs 0x0020) { native with memMap := [{ base := 0x20, size := 2, kind := .device false false }] }
      (fun t => t.deviceWrites != native.deviceWrites) = true := by decide

/-- A platform with one byte of RAM at $00:000F, one of ROM at $00:0010, and devices: two bytes with read side effects from
$00:0011, two without from $00:0020, two whose dummy cycles are harmless from $00:0030; and nothing else. -/
def sparse : State :=
  { native with
    x := 0
    c := 0x1234
    memMap := [{ base := 0x0F, size := 1, kind := .ram }, { base := 0x10, size := 1, kind := .rom },
      { base := 0x11, size := 2, kind := .device true false }, { base := 0x20, size := 2, kind := .device false false },
      { base := 0x30, size := 2, kind := .device true true }] }

/-- The clauses on what is refused: unmapped, ROM, a device beside dummy cycles; a load, a store, a fetch. -/
theorem test_witness_InstructionsStopOnlyAtTheMap :
    exec (.ldaAbs 0x0013) sparse = .refused (.unmapped 0x000013) ∧
    exec (.staAbs 0x0010) sparse = .refused (.romWrite 0x000010) ∧
    exec (.ldaAbsX 0x0011) sparse = .refused (.deviceAccess 0x000011) ∧
    exec (.incAbs 0x0011) sparse = .refused (.deviceAccess 0x000011) ∧
    kindAt sparse.memMap 0x10 = some .rom ∧ kindAt sparse.memMap 0x0F = some .ram ∧
    ldaForm (.mem (.abs 0x0013)) = some (0xAD, .ldaAbs 0x0013) ∧ MemMode.ea sparse (.abs 0x0013) = .ok (linear 0x000013) ∧
    readW sparse .operand (linear 0x000013) sparse.wA = .error (.unmapped 0x000013) ∧
    staForm (.abs 0x0010) = some (0x8D, .staAbs 0x0010) ∧
    storeW sparse .operand (linear 0x000010) .w16 0x1234 = .error (.romWrite 0x000010) ∧
    sparse.Executes ∧ read8 sparse.sample .fetch (sparse.fetchAddr 0) = .error (.unmapped 0x00FFFD) :=
  ⟨rfl, rfl, rfl, rfl, rfl, rfl, rfl, rfl, rfl, rfl, rfl, by decide, rfl⟩

/-- `LDA abs` of a device with read side effects is a plain access, and runs (R70). -/
theorem test_device_load : exec (.ldaAbs 0x0011) { sparse with p := 0x20 } = .next
    (let v := Config.deviceByte [] 0 .operand 0x000011
     State.setNZ { sparse with p := 0x20, pc := 0x0000, c := word 0x12 v } v) := rfl

/-- Indexed accesses run where there are no read side effects, or the platform calls dummy cycles harmless (R70). -/
theorem test_device_indexed : exec (.staAbsX 0x0030) { sparse with p := 0x20 } = .next
    { sparse with p := 0x20, pc := 0x0000, deviceWrites := [(0x30, 0x34)] } := rfl

/-- A 16-bit store writes its low byte first, a 16-bit read-modify-write its high byte (R66). -/
theorem test_device_write_order :
    runs (.staAbs 0x0011) sparse (fun t => t.deviceWrites == [(0x12, 0x12), (0x11, 0x34)]) = true ∧
    runs (.incAbs 0x0020) sparse (fun t => t.deviceWrites.map (fun c => c.1) == [0x20, 0x21]) = true := ⟨by decide, rfl⟩

theorem sparse_onDevice : sparse.OnDevice .operand (linear (sparse.dataAddr 0x0011)) 2 ∧
    sparse.OnDevice .exposed (linear (sparse.dataAddr 0x0020)) 2 := by
  constructor <;> intro j hj <;>
  match j, hj with
  | 0, _ => exact ⟨_, _, rfl, rfl⟩
  | 1, _ => exact ⟨_, _, rfl, rfl⟩

theorem test_witness_StoreThenLoad : linear 0xFFFFFF 0 ≠ linear 0xFFFFFF 1 ∧ native.CanWrite (linear 0xFFFFFF) 2 ∧
    ∃ t, storeW native .operand (linear 0xFFFFFF) .w16 0x1234 = .ok t :=
  ⟨by decide, canWrite_of_allRam reset_allRam _ _, _, rfl⟩

theorem test_witness_StackPrimitives : native.CanWrite native.slot 2 ∧ emulation.CanWrite emulation.slot 2 ∧
    (∃ t, push8 emulation 0xFF = .ok t) ∧ ∃ t, push16 native 0xFFFF = .ok t :=
  ⟨canWrite_of_allRam reset_allRam _ _, canWrite_of_allRam reset_allRam _ _, ⟨_, rfl⟩, _, rfl⟩

theorem test_witness_IndirectAddresses :
    native.CanRead .pointer (dpw native 0xFF) 2 ∧ native.CanRead .pointer (dpw native (0xFF + native.x.toNat)) 2 ∧
    native.CanRead .pointer (dpn native 0xFF) 3 ∧ emulation.CanRead .pointer (dpw emulation 0xFF) 2 ∧
    native.CanRead .pointer (bankAddr 0 (native.s + (0xFF : Byte).setWidth 16)) 2 :=
  ⟨canRead_of_allRam reset_allRam _ _, canRead_of_allRam reset_allRam _ _, canRead_of_allRam reset_allRam _ _,
    canRead_of_allRam reset_allRam _ _, canRead_of_allRam reset_allRam _ _⟩

/-- An immediate operand of each width. -/
theorem operandIs_imm (s : State) : OperandIs s .w8 (.imm (.byte 0xFF)) 0xFF ∧ OperandIs s .w16 (.imm (.word 0xFFFF)) 0xFFFF :=
  ⟨rfl, rfl⟩

/-- A memory operand, at the last byte of the data bank. -/
theorem operandIs_mem {s : State} (h : s.AllRam) (w : Width) :
    OperandIs s w (.mem (.abs 0xFFFF)) (s.valueAt .operand (linear (s.dataAddr 0xFFFF)) w) := by
  cases w <;> exact ⟨_, rfl, canRead_of_allRam h _ _, rfl⟩

theorem test_witness_LdaLoads :
    ldaForm (.imm (.word 0xFFFF)) = some (0xA9, .ldaImm (.word 0xFFFF)) ∧
    OperandIs native native.wA (.imm (.word 0xFFFF)) (0xFFFF : Word) ∧
    ldaForm (.mem (.abs 0xFFFF)) = some (0xAD, .ldaAbs 0xFFFF) ∧
    OperandIs emulation emulation.wA (.mem (.abs 0xFFFF)) (emulation.valueAt .operand (linear (emulation.dataAddr 0xFFFF)) .w8) :=
  ⟨rfl, rfl, rfl, operandIs_mem emulation_allRam .w8⟩

theorem test_witness_LdxAndLdyLoad :
    OperandIs native native.wI (.mem (.abs 0xFFFF)) (native.valueAt .operand (linear (native.dataAddr 0xFFFF)) .w16) ∧
    ldxForm (.mem (.abs 0xFFFF)) = some (0xAE, .ldxAbs 0xFFFF) ∧ ldyForm (.mem (.abs 0xFFFF)) = some (0xAC, .ldyAbs 0xFFFF) :=
  ⟨operandIs_mem native_allRam .w16, rfl, rfl⟩

/-- The operand of a reading instruction may be a device's free value. -/
theorem test_witness_LdaLoads_device :
    OperandIs sparse .w16 (.mem (.abs 0x0011)) (sparse.valueAt .operand (linear (sparse.dataAddr 0x0011)) .w16) :=
  ⟨_, rfl, fun j hj => (sparse_onDevice.1 j hj).readable, rfl⟩

theorem test_witness_StoresWriteTheirRegister_device : MemMode.ea sparse (.abs 0x0011) = .ok (linear (sparse.dataAddr 0x0011)) ∧
    sparse.OnDevice (MemMode.abs 0x0011).access (linear (sparse.dataAddr 0x0011)) sparse.wA.bytes ∧
    staForm (.abs 0x0011) = some (0x8D, .staAbs 0x0011) := ⟨rfl, sparse_onDevice.1, rfl⟩

/-- The device clause of the statements on ASL, LSR, ROL, ROR, INC, DEC, TSB and TRB. -/
theorem test_witness_ChangesMemory_device : MemMode.ea sparse (.abs 0x0020) = .ok (linear (sparse.dataAddr 0x0020)) ∧
    sparse.OnDevice .exposed (linear (sparse.dataAddr 0x0020)) sparse.wA.bytes ∧
    aslForm (.mem (.abs 0x0020)) = some (0x0E, .aslAbs 0x0020) ∧ incForm (.mem (.abs 0x0020)) = some (0xEE, .incAbs 0x0020) ∧
    tsbForm (.abs 0x0020) = some (0x0C, .tsbAbs 0x0020) := ⟨rfl, sparse_onDevice.2, rfl, rfl, rfl⟩

theorem test_witness_StoresWriteTheirRegister : ∃ ea, MemMode.ea native (.abs 0xFFFF) = .ok ea ∧
    native.CanWrite ea 2 ∧ staForm (.abs 0xFFFF) = some (0x8D, .staAbs 0xFFFF) ∧
    stzForm (.abs 0xFFFF) = some (0x9C, .stzAbs 0xFFFF) ∧ stxForm (.abs 0xFFFF) = some (0x8E, .stxAbs 0xFFFF) ∧
    styForm (.abs 0xFFFF) = some (0x8C, .styAbs 0xFFFF) :=
  ⟨_, rfl, canWrite_of_allRam reset_allRam _ _, rfl, rfl, rfl, rfl⟩

theorem test_witness_AdcAddsBinary :
    native.flagD = false ∧
    OperandIs native native.wA (.imm (.word 0xFFFF)) (0xFFFF : Word) ∧
    adcForm (.imm (.word 0xFFFF)) = some (0x69, .adcImm (.word 0xFFFF)) := ⟨rfl, rfl, rfl⟩

theorem test_witness_SbcSubtractsBinary :
    native.flagD = false ∧
    OperandIs native native.wA (.imm (.word 0xFFFF)) (0xFFFF : Word) ∧
    sbcForm (.imm (.word 0xFFFF)) = some (0xE9, .sbcImm (.word 0xFFFF)) := ⟨rfl, rfl, rfl⟩

theorem test_witness_LogicalInstructions :
    OperandIs native native.wA (.imm (.word 0xFFFF)) (0xFFFF : Word) ∧
    andForm (.imm (.word 0xFFFF)) = some (0x29, .andImm (.word 0xFFFF)) ∧
    oraForm (.imm (.word 0xFFFF)) = some (0x09, .oraImm (.word 0xFFFF)) ∧
    eorForm (.imm (.word 0xFFFF)) = some (0x49, .eorImm (.word 0xFFFF)) := ⟨rfl, rfl, rfl, rfl⟩

theorem test_witness_BitTests :
    OperandIs native native.wA (.imm (.word 0xFFFF)) (0xFFFF : Word) ∧
    bitForm (.imm (.word 0xFFFF)) = some (0x89, .bitImm (.word 0xFFFF)) := ⟨rfl, rfl⟩

theorem test_witness_Compares :
    OperandIs native native.wA (.imm (.word 0xFFFF)) (0xFFFF : Word) ∧
    cmpForm (.imm (.word 0xFFFF)) = some (0xC9, .cmpImm (.word 0xFFFF)) ∧
    OperandIs emulation emulation.wI (.imm (.byte 0xFF)) (0xFF : Byte) ∧
    cpxForm (.imm (.byte 0xFF)) = some (0xE0, .cpxImm (.byte 0xFF)) ∧
    cpyForm (.imm (.byte 0xFF)) = some (0xC0, .cpyImm (.byte 0xFF)) := ⟨rfl, rfl, rfl, rfl, rfl⟩

/-- The largest decimal operand in a 16-bit accumulator, in decimal mode. -/
def decimalEdge : State := { native with p := 0x08, c := 0x9999 }

theorem test_witness_DecimalArithmetic : decimalEdge.flagD = true ∧
    OperandIs decimalEdge decimalEdge.wA (.imm (.word 0x9999)) (0x9999 : Word) ∧ ValidBcd 0x9999 4 ∧
    bcdValue 0x9999 4 = 9999 ∧ adcForm (.imm (.word 0x9999)) = some (0x69, .adcImm (.word 0x9999)) ∧
    sbcForm (.imm (.word 0x9999)) = some (0xE9, .sbcImm (.word 0x9999)) :=
  ⟨rfl, rfl, by simp [ValidBcd, digit], by decide, rfl, rfl⟩

theorem test_witness_ShiftsAndRotates : ∃ ea, MemMode.ea native (.abs 0xFFFF) = .ok ea ∧
    native.CanWrite ea native.wA.bytes ∧
    aslForm (.mem (.abs 0xFFFF)) = some (0x0E, .aslAbs 0xFFFF) ∧
    aslForm .acc = some (0x0A, .aslAcc) ∧
    lsrForm (.mem (.abs 0xFFFF)) = some (0x4E, .lsrAbs 0xFFFF) ∧
    lsrForm .acc = some (0x4A, .lsrAcc) ∧
    rolForm (.mem (.abs 0xFFFF)) = some (0x2E, .rolAbs 0xFFFF) ∧
    rolForm .acc = some (0x2A, .rolAcc) ∧
    rorForm (.mem (.abs 0xFFFF)) = some (0x6E, .rorAbs 0xFFFF) ∧
    rorForm .acc = some (0x6A, .rorAcc) :=
  ⟨_, rfl, canWrite_of_allRam reset_allRam _ _, rfl, rfl, rfl, rfl, rfl, rfl, rfl, rfl⟩

theorem test_witness_IncrementsAndDecrements : ∃ ea, MemMode.ea native (.abs 0xFFFF) = .ok ea ∧
    native.CanWrite ea native.wA.bytes ∧
    incForm (.mem (.abs 0xFFFF)) = some (0xEE, .incAbs 0xFFFF) ∧
    incForm .acc = some (0x1A, .incAcc) ∧
    decForm (.mem (.abs 0xFFFF)) = some (0xCE, .decAbs 0xFFFF) ∧
    decForm .acc = some (0x3A, .decAcc) :=
  ⟨_, rfl, canWrite_of_allRam reset_allRam _ _, rfl, rfl, rfl, rfl⟩

theorem test_witness_TestAndSetOrResetBits : ∃ ea, MemMode.ea native (.abs 0xFFFF) = .ok ea ∧
    native.CanWrite ea native.wA.bytes ∧
    tsbForm (.abs 0xFFFF) = some (0x0C, .tsbAbs 0xFFFF) ∧
    trbForm (.abs 0xFFFF) = some (0x1C, .trbAbs 0xFFFF) :=
  ⟨_, rfl, canWrite_of_allRam reset_allRam _ _, rfl, rfl⟩

theorem test_witness_JumpsGoToTheirTarget :
    native.CanRead .pointer (fun k => addr 0 (0xFFFF + BitVec.ofNat 16 k)) 3 ∧
    native.CanRead .pointer (fun k => addr native.pbr (0xFFFF + native.x + BitVec.ofNat 16 k)) 2 :=
  ⟨canRead_of_allRam reset_allRam _ _, canRead_of_allRam reset_allRam _ _⟩

theorem test_witness_CallsPushAndJump : native.CanWrite native.slot 3 ∧ emulation.CanWrite emulation.slot 3 ∧
    native.CanRead .pointer (fun k => addr native.pbr (0xFFFF + native.x + BitVec.ofNat 16 k)) 2 :=
  ⟨canWrite_of_allRam reset_allRam _ _, canWrite_of_allRam reset_allRam _ _, canRead_of_allRam reset_allRam _ _⟩

theorem test_witness_ReturnsPullTheirTarget : native.CanRead .stack native.pullSlot 3 ∧ emulation.CanRead .stack emulation.pullSlot 3 :=
  ⟨canRead_of_allRam reset_allRam _ _, canRead_of_allRam reset_allRam _ _⟩

theorem test_witness_RegisterPushes : native.CanWrite native.slot 2 ∧ emulation.CanWrite emulation.slot 2 :=
  ⟨canWrite_of_allRam reset_allRam _ _, canWrite_of_allRam reset_allRam _ _⟩

theorem test_witness_RegisterPulls :
    native.CanRead .stack native.pullSlot native.wA.bytes ∧ native.CanRead .stack native.pullSlot native.wI.bytes ∧
    emulation.CanRead .stack emulation.pullSlot 1 ∧ emulation.CanRead .stack emulation.pullSlot 2 :=
  ⟨canRead_of_allRam reset_allRam _ _, canRead_of_allRam reset_allRam _ _, canRead_of_allRam reset_allRam _ _,
    canRead_of_allRam reset_allRam _ _⟩

theorem test_witness_StatusByteInstructions : native.CanRead .stack native.pullSlot 1 ∧ emulation.CanRead .stack emulation.pullSlot 1 :=
  ⟨canRead_of_allRam reset_allRam _ _, canRead_of_allRam reset_allRam _ _⟩

theorem test_witness_RtiPullsTheFrame : native.CanRead .stack native.pullSlot (if native.e then 3 else 4) ∧
    emulation.CanRead .stack emulation.pullSlot (if emulation.e then 3 else 4) :=
  ⟨canRead_of_allRam reset_allRam _ _, canRead_of_allRam reset_allRam _ _⟩

theorem test_witness_ReturnsUndoCalls :
    (native.CanWrite native.slot 2 ∧ ∃ t, exec (.jsrAbs 0xFFFF) native = .next t) ∧
    (emulation.CanWrite emulation.slot 2 ∧ ∃ t, exec (.jsrIndX 0xFFFF) emulation = .next t) ∧
    emulation.CanWrite emulation.slot 3 ∧ ∃ t, exec (.jsl 0xFFFFFF) emulation = .next t :=
  ⟨⟨canWrite_of_allRam reset_allRam _ _, _, rfl⟩, ⟨canWrite_of_allRam reset_allRam _ _, _, rfl⟩,
    canWrite_of_allRam reset_allRam _ _, _, rfl⟩

theorem test_witness_EffectiveAddressPushes : native.CanWrite native.slot 2 ∧
    native.CanRead .operand (fun k => addr 0 (native.d + BitVec.ofNat 16 0xFF + BitVec.ofNat 16 k)) 2 :=
  ⟨canWrite_of_allRam reset_allRam _ _, canRead_of_allRam reset_allRam _ _⟩

theorem test_witness_BlockMoveCopiesOneByte : native.Readable .operand (addr 0xFF native.x) ∧ native.Writable (addr 0x00 native.y) :=
  ⟨reset_allRam.readable _, reset_allRam.writable _⟩

/-- The longest move, $10000 bytes from bank 1 to bank 2. -/
def wholeBank : State := { native with c := 0xFFFF }

theorem test_witness_MvnCopiesTheWholeBlock : wholeBank.flagX = false ∧
    (∀ k, k ≤ wholeBank.c.toNat → wholeBank.RamOrRom (addr 1 (wholeBank.x + BitVec.ofNat 16 k))) ∧
    (∀ k, k ≤ wholeBank.c.toNat → wholeBank.Writable (addr 2 (wholeBank.y + BitVec.ofNat 16 k))) ∧
    ∀ j k, j ≤ wholeBank.c.toNat → k ≤ wholeBank.c.toNat →
      addr 1 (wholeBank.x + BitVec.ofNat 16 j) ≠ addr 2 (wholeBank.y + BitVec.ofNat 16 k) :=
  ⟨rfl, fun _ _ => .inl (reset_allRam.writable _), fun _ _ => reset_allRam.writable _,
    fun _ _ _ _ h => absurd (addr_inj h).1 (by decide)⟩

theorem test_witness_MvpCopiesTheWholeBlock : wholeBank.flagX = false ∧
    (∀ k, k ≤ wholeBank.c.toNat → wholeBank.RamOrRom (addr 1 (wholeBank.x - BitVec.ofNat 16 k))) ∧
    (∀ k, k ≤ wholeBank.c.toNat → wholeBank.Writable (addr 2 (wholeBank.y - BitVec.ofNat 16 k))) ∧
    ∀ j k, j ≤ wholeBank.c.toNat → k ≤ wholeBank.c.toNat →
      addr 1 (wholeBank.x - BitVec.ofNat 16 j) ≠ addr 2 (wholeBank.y - BitVec.ofNat 16 k) :=
  ⟨rfl, fun _ _ => .inl (reset_allRam.writable _), fun _ _ => reset_allRam.writable _,
    fun _ _ _ _ h => absurd (addr_inj h).1 (by decide)⟩

theorem test_witness_SingleFlagInstructions :
    (0xB8, .clv, 6, false) ∈ ([(0x18, .clc, 0, false), (0x38, .sec, 0, true), (0xD8, .cld, 3, false),
      (0xF8, .sed, 3, true), (0x58, .cli, 2, false), (0x78, .sei, 2, true), (0xB8, .clv, 6, false)] :
        List (Byte × Instr × Nat × Bool)) := by decide

end Sys2Proof.Tests
end

section
/-!
SUPPORT. What an instruction may write (R20 to R41), as a table over the parts of the state, and the primitive updates
that every meaning is a sequence of. What holds of each update holds of each instruction: a part that is not written
stays, and the invariants of R38 are kept.
-/
namespace Sys2Proof.Machine

/-! ### The parts of the state and the instructions that write them -/

/-- The status bits (R28). -/
inductive Flag where
  | n | v | m | x | d | i | z | c
  deriving DecidableEq

/-- The place of a status bit in P (R28). -/
def Flag.bit : Flag → Nat
  | .n => 7
  | .v => 6
  | .m => 5
  | .x => 4
  | .d => 3
  | .i => 2
  | .z => 1
  | .c => 0

theorem Flag.bit_lt (f : Flag) : f.bit < 8 := by cases f <;> decide

theorem Flag.bit_inj {f g : Flag} (h : f.bit = g.bit) : f = g := by
  cases f <;> cases g <;> simp [Flag.bit] at h ⊢

/-- The parts of the state other than PC, which every instruction may write: the registers, the status bits, the memory
with the record of device writes, and the platform's fields with the NMI latch. -/
inductive Part where
  | acc | x | y | s | d | dbr | pbr | e | run
  | flag (f : Flag)
  | memory
  | platform
  deriving DecidableEq

/-- The part is the same in both states. -/
def Part.Same (s t : State) : Part → Prop
  | .acc => t.c = s.c
  | .x => t.x = s.x
  | .y => t.y = s.y
  | .s => t.s = s.s
  | .d => t.d = s.d
  | .dbr => t.dbr = s.dbr
  | .pbr => t.pbr = s.pbr
  | .e => t.e = s.e
  | .run => t.run = s.run
  | .flag f => t.p.getLsbD f.bit = s.p.getLsbD f.bit
  | .memory => (t.mem, t.deviceWrites) = (s.mem, s.deviceWrites)
  | .platform =>
    (t.nmiPending, t.memMap, t.vectors, t.inputs, t.draw) = (s.nmiPending, s.memMap, s.vectors, s.inputs, s.draw)

theorem Part.Same.refl (s : State) (p : Part) : p.Same s s := by cases p <;> rfl

theorem Part.Same.trans {s t u : State} {p : Part} (h : p.Same s t) (h' : p.Same t u) : p.Same s u := by
  cases p <;> exact Eq.trans h' h

/-- The instruction is the accumulator form of a read-modify-write mnemonic (R156). -/
def onAcc : Instr → Bool
  | .aslAcc | .lsrAcc | .rolAcc | .rorAcc | .incAcc | .decAcc => true
  | _ => false

theorem mem_of_onAcc {i : Instr} (h : onAcc i = true) :
    i ∈ [Instr.aslAcc, .lsrAcc, .rolAcc, .rorAcc, .incAcc, .decAcc] := by
  unfold onAcc at h
  split at h <;> simp at h ⊢

/-- The mnemonics that set N and Z from a result, but for the whole-status writers (R29, R35). -/
def resultMnemonics : List Mnemonic :=
  [.lda, .ldx, .ldy, .adc, .sbc, .and, .ora, .eor, .asl, .lsr, .rol, .ror, .inc, .inx, .iny, .dec, .dex, .dey, .cmp,
   .cpx, .cpy, .pla, .plx, .ply, .plb, .pld, .tsc, .tdc, .tsx, .tax, .tay, .txa, .tya, .txy, .tyx, .tcd, .xba, .bit]

/-- The read-modify-write mnemonics with an accumulator form (R156). -/
def accumulatorMnemonics : List Mnemonic := [.asl, .lsr, .rol, .ror, .inc, .dec]

/-- The mnemonic, in its accumulator form or in another, is one of the writers of the part (R21 to R26, R29 to R37, R41,
R65). REP is one of X and Y, whose high bytes it would clear in a state that R38 excludes. -/
def Part.writtenBy (m : Mnemonic) (inAcc : Bool) : Part → Bool
  | .acc => decide (m ∈ [.lda, .adc, .sbc, .and, .ora, .eor, .pla, .txa, .tya, .tsc, .tdc, .xba, .mvn, .mvp] ∨
      m ∈ accumulatorMnemonics ∧ inAcc = true)
  | .x => decide (m ∈ [.rep, .ldx, .plx, .tax, .tsx, .tyx, .inx, .dex, .mvn, .mvp, .sep, .plp, .rti, .xce])
  | .y => decide (m ∈ [.rep, .ldy, .ply, .tay, .txy, .iny, .dey, .mvn, .mvp, .sep, .plp, .rti, .xce])
  | .s => decide (m ∈ [.txs, .tcs, .pha, .phx, .phy, .phb, .phd, .phk, .php, .pla, .plx, .ply, .plb, .pld, .plp, .jsr,
      .jsl, .rts, .rtl, .rti, .pea, .pei, .per, .brk, .cop, .xce])
  | .d => decide (m ∈ [.tcd, .pld])
  | .dbr => decide (m ∈ [.plb, .mvn, .mvp])
  | .pbr => decide (m ∈ [.jml, .jsl, .rtl, .rti, .brk, .cop])
  | .e => decide (m = .xce)
  | .run => decide (m ∈ [.wai, .stp])
  | .flag .n => decide (m ∈ resultMnemonics ++ [.plp, .rti, .rep, .sep])
  | .flag .z => decide (m ∈ resultMnemonics ++ [.tsb, .trb, .plp, .rti, .rep, .sep])
  | .flag .v => decide (m ∈ [.adc, .sbc, .bit, .clv, .plp, .rti, .rep, .sep])
  | .flag .m => decide (m ∈ [.rep, .sep, .plp, .rti, .xce])
  | .flag .x => decide (m ∈ [.rep, .sep, .plp, .rti, .xce])
  | .flag .d => decide (m ∈ [.sed, .cld, .brk, .cop, .plp, .rti, .rep, .sep])
  | .flag .i => decide (m ∈ [.sei, .cli, .brk, .cop, .plp, .rti, .rep, .sep])
  | .flag .c => decide (m ∈ [.adc, .sbc, .cmp, .cpx, .cpy, .asl, .lsr, .rol, .ror, .clc, .sec, .xce, .plp, .rti, .rep,
      .sep])
  | .memory => decide (m ∈ [.sta, .stx, .sty, .stz, .tsb, .trb, .mvn, .mvp, .pha, .phx, .phy, .phb, .phd, .phk, .php,
      .pea, .pei, .per, .jsr, .jsl, .brk, .cop] ∨ m ∈ accumulatorMnemonics ∧ inAcc = false)
  | .platform => false

/-- The parts a whole status byte reaches (R39). -/
def statusParts : List Part :=
  [.flag .n, .flag .v, .flag .m, .flag .x, .flag .d, .flag .i, .flag .z, .flag .c, .x, .y]

/-- The parts a mnemonic, in its accumulator form or in another, writes. -/
def writes (inAcc : Bool) : Mnemonic → List Part
  | .adc | .sbc => [.flag .z, .flag .n, .acc, .flag .v, .flag .c]
  | .and | .eor | .lda | .ora | .tdc | .tsc | .txa | .tya | .xba => [.flag .z, .flag .n, .acc]
  | .asl | .lsr | .rol | .ror => [.flag .z, .flag .n, bif inAcc then .acc else .memory, .flag .c]
  | .bcc | .bcs | .beq | .bmi | .bne | .bpl | .bra | .brl | .bvc | .bvs | .jmp | .nop | .wdm => []
  | .bit => [.flag .v, .flag .n, .flag .z]
  | .brk | .cop => [.pbr, .s, .memory, .flag .d, .flag .i]
  | .clc | .sec => [.flag .c]
  | .cld | .sed => [.flag .d]
  | .cli | .sei => [.flag .i]
  | .clv => [.flag .v]
  | .cmp | .cpx | .cpy => [.flag .z, .flag .n, .flag .c]
  | .dec | .inc => [.flag .z, .flag .n, bif inAcc then .acc else .memory]
  | .dex | .inx | .ldx | .tax | .tsx | .tyx => [.flag .z, .flag .n, .x]
  | .dey | .iny | .ldy | .tay | .txy => [.flag .z, .flag .n, .y]
  | .jml => [.pbr]
  | .jsl => [.pbr, .s, .memory]
  | .jsr | .pea | .pei | .per | .pha | .phb | .phd | .phk | .php | .phx | .phy => [.s, .memory]
  | .mvn | .mvp => [.acc, .y, .x, .memory, .dbr]
  | .pla => [.flag .z, .flag .n, .acc, .s]
  | .plb => [.flag .z, .flag .n, .dbr, .s]
  | .pld => [.flag .z, .flag .n, .d, .s]
  | .plp => statusParts ++ [.s]
  | .plx => [.flag .z, .flag .n, .x, .s]
  | .ply => [.flag .z, .flag .n, .y, .s]
  | .rep | .sep => statusParts
  | .rti => .pbr :: (statusParts ++ [.s])
  | .rtl => [.pbr, .s]
  | .rts | .tcs | .txs => [.s]
  | .sta | .stx | .sty | .stz => [.memory]
  | .stp | .wai => [.run]
  | .tcd => [.flag .z, .flag .n, .d]
  | .trb | .tsb => [.memory, .flag .z]
  | .xce => [.e, .flag .m, .flag .x, .x, .y, .s, .flag .c]

/-- A mnemonic is among the writers of every part it writes. -/
theorem writtenBy_of_mem_writes {m : Mnemonic} {inAcc : Bool} {p : Part} (h : p ∈ writes inAcc m) :
    p.writtenBy m inAcc = true := by
  have hall : (writes inAcc m).all (Part.writtenBy m inAcc) = true := by cases m <;> cases inAcc <;> rfl
  exact List.all_eq_true.1 hall p h

/-! ### The primitive updates -/

/-- The mode switch of XCE: E is written, and emulation mode forces what it forces (R344). -/
def State.switchMode (s : State) (b : Bool) : State :=
  let n := { s with e := b }
  if n.e then n.forceEmulation else n

/-- One primitive update of the state, which writes PC and the listed parts alone. The updates of S, X, Y and the whole
status byte are those that keep R38; a memory update keeps the canonical form. -/
inductive Update (s : State) : List Part → State → Prop where
  | pc (v : Word) : Update s [] { s with pc := v }
  | acc (v : Word) : Update s [.acc] { s with c := v }
  | x {w : Nat} (v : BitVec w) : Update s [.x] (s.writeX v)
  | y {w : Nat} (v : BitVec w) : Update s [.y] (s.writeY v)
  /-- In emulation mode SL alone is written. -/
  | stack (l : Byte) (v : Word) : Update s [.s] { s with s := if s.e then word (hi s.s) l else v }
  | direct (v : Word) : Update s [.d] { s with d := v }
  | dataBank (v : Byte) : Update s [.dbr] { s with dbr := v }
  | programBank (v : Byte) : Update s [.pbr] { s with pbr := v }
  | run (r : RunState) : Update s [.run] { s with run := r }
  | flag (f : Flag) (b : Bool) (hm : f ≠ .m) (hx : f ≠ .x) : Update s [.flag f] { s with p := setBit s.p f.bit b }
  | memory (m : Memory) (l : List Host.Cell) (hw : s.mem.wf = true → m.wf = true) :
      Update s [.memory] { s with mem := m, deviceWrites := l }
  | status (v : Byte) : Update s statusParts (s.setP v)
  | mode (b : Bool) : Update s [.e, .flag .m, .flag .x, .x, .y, .s] (s.switchMode b)

/-- Outside bits 5 and 4 a byte stays the same when these two are forced to 1. -/
theorem getLsbD_or_forced (p : Byte) {f : Flag} (hm : f ≠ .m) (hx : f ≠ .x) :
    (p ||| 0x30).getLsbD f.bit = p.getLsbD f.bit := by
  rw [BitVec.getLsbD_or]
  cases f <;> simp [Flag.bit] at hm hx ⊢

/-- An update changes no part outside its list. -/
theorem Update.same {ps : List Part} {s t : State} (h : Update s ps t) {p : Part} (hp : p ∉ ps) : p.Same s t := by
  cases h with
  | pc v => cases p <;> rfl
  | acc v => cases p with
    | acc => exact absurd (List.mem_singleton_self _) hp
    | _ => rfl
  | x v => cases p with
    | x => exact absurd (List.mem_singleton_self _) hp
    | _ => rfl
  | y v => cases p with
    | y => exact absurd (List.mem_singleton_self _) hp
    | _ => rfl
  | stack l v => cases p with
    | s => exact absurd (List.mem_singleton_self _) hp
    | _ => rfl
  | direct v => cases p with
    | d => exact absurd (List.mem_singleton_self _) hp
    | _ => rfl
  | dataBank v => cases p with
    | dbr => exact absurd (List.mem_singleton_self _) hp
    | _ => rfl
  | programBank v => cases p with
    | pbr => exact absurd (List.mem_singleton_self _) hp
    | _ => rfl
  | run r => cases p with
    | run => exact absurd (List.mem_singleton_self _) hp
    | _ => rfl
  | flag f b => cases p with
    | flag g =>
      have hfg : f.bit ≠ g.bit := fun e => hp (Flag.bit_inj e ▸ List.mem_singleton_self _)
      simp only [Part.Same, getLsbD_setBit _ _ _ _ f.bit_lt, if_neg hfg]
    | _ => rfl
  | memory m l => cases p with
    | memory => exact absurd (List.mem_singleton_self _) hp
    | _ => rfl
  | status v => cases p with
    | x | y => exact absurd (by decide) hp
    | flag f => exact absurd (by cases f <;> decide) hp
    | _ => simp [Part.Same]
  | mode b => cases p with
    | e | x | y | s => exact absurd (by decide) hp
    | flag f =>
      have hm : f ≠ .m := fun e => hp (by subst e; decide)
      have hx : f ≠ .x := fun e => hp (by subst e; decide)
      cases b
      · rfl
      · exact getLsbD_or_forced s.p hm hx
    | _ => cases b <;> rfl

/-! ### The invariants of R38 -/

/-- The three invariants of R38 together. -/
def State.ModeInv (s : State) : Prop := s.WidthsForced ∧ s.StackForced ∧ s.IndexNarrow

/-- Every update keeps the invariants of R38. -/
theorem Update.keeps_modeInv {ps : List Part} {s t : State} (h : Update s ps t) (hs : s.ModeInv) : t.ModeInv := by
  obtain ⟨hw, hst, hn⟩ := hs
  cases h with
  | pc | acc | direct | dataBank | programBank | run | memory => exact ⟨hw, hst, hn⟩
  | x v =>
    refine ⟨hw, hst, fun h => ⟨?_, (hn h).2⟩⟩
    have h : s.flagX = true := h
    simp [h]
  | y v =>
    refine ⟨hw, hst, fun h => ⟨(hn h).1, ?_⟩⟩
    have h : s.flagX = true := h
    simp [h]
  | stack l v =>
    refine ⟨hw, fun he => ?_, hn⟩
    have he : s.e = true := he
    simpa [he] using hst he
  | flag f b hm hx =>
    have keeps : ∀ g, f ≠ g → (setBit s.p f.bit b).getLsbD g.bit = s.p.getLsbD g.bit := fun g hg => by
      rw [getLsbD_setBit _ _ _ _ f.bit_lt, if_neg fun e => hg (Flag.bit_inj e)]
    have eM : State.flagM { s with p := setBit s.p f.bit b } = s.flagM := keeps .m hm
    have eX : State.flagX { s with p := setBit s.p f.bit b } = s.flagX := keeps .x hx
    exact ⟨fun he => by rw [eM, eX]; exact hw he, hst, fun h => hn (eX ▸ h)⟩
  | status v =>
    refine ⟨fun he => ?_, fun he => ?_, fun h => ?_⟩
    · have he : s.e = true := by simpa using he
      simp [State.flagM, State.flagX, he]
    · have he : s.e = true := by simpa using he
      simpa using hst he
    · have h : (s.e || v.getLsbD 4) = true := by
        cases he : s.e with
        | true => rfl
        | false => simpa [State.flagX, he] using h
      rw [State.setP_x, State.setP_y, if_pos h, if_pos h]
      exact ⟨hi_word _ _, hi_word _ _⟩
  | mode b => cases b with
    | false => exact ⟨nofun, nofun, hn⟩
    | true =>
      refine ⟨fun _ => ?_, fun _ => hi_word _ _, fun _ => ⟨hi_word _ _, hi_word _ _⟩⟩
      simp [State.switchMode, State.flagM, State.flagX]

/-! ### Sequences of updates -/

/-- `t` comes from `s` by updates that write PC and the listed parts alone, those of the last update first. -/
inductive Does (s : State) : List Part → State → Prop where
  | refl : Does s [] s
  | tail {ps qs : List Part} {t u : State} (h : Does s ps t) (hu : Update t qs u) : Does s (qs ++ ps) u
  | weaken {ps qs : List Part} {t : State} (h : Does s ps t) (hsub : ps ⊆ qs) : Does s qs t

theorem Does.trans {ps qs : List Part} {s t u : State} (h : Does s ps t) (h' : Does t qs u) : Does s (qs ++ ps) u := by
  induction h' with
  | refl => exact h
  | tail _ hu ih => rw [List.append_assoc]; exact ih.tail hu
  | weaken _ hsub ih =>
    exact ih.weaken fun _ hq => List.mem_append.2 ((List.mem_append.1 hq).imp_left (@hsub _))

/-- What a sequence of updates does not write stays as it was. -/
theorem Does.same {ps : List Part} {s t : State} (h : Does s ps t) {p : Part} (hp : p ∉ ps) : p.Same s t := by
  induction h with
  | refl => exact Part.Same.refl s p
  | tail _ hu ih =>
    rw [List.mem_append, not_or] at hp
    exact (ih hp.2).trans (hu.same hp.1)
  | weaken _ hsub ih => exact ih fun hmem => hp (hsub hmem)

/-- A sequence of updates keeps the invariants of R38. -/
theorem Does.keeps_modeInv {ps : List Part} {s t : State} (h : Does s ps t) (hs : s.ModeInv) : t.ModeInv := by
  induction h with
  | refl => exact hs
  | tail _ hu ih => exact hu.keeps_modeInv ih
  | weaken _ _ ih => exact ih

section
variable {ps : List Part} {s t : State} (h : Does s ps t)
include h

theorem Does.pc (v : Word) : Does s ps { t with pc := v } := h.tail (.pc v)
theorem Does.advance (n : Nat) : Does s ps (t.advance n) := h.pc _
theorem Does.acc (v : Word) : Does s (.acc :: ps) { t with c := v } := h.tail (.acc v)
theorem Does.writeA {w : Nat} (v : BitVec w) : Does s (.acc :: ps) (t.writeA v) := h.acc _
theorem Does.writeX {w : Nat} (v : BitVec w) : Does s (.x :: ps) (t.writeX v) := h.tail (.x v)
theorem Does.writeY {w : Nat} (v : BitVec w) : Does s (.y :: ps) (t.writeY v) := h.tail (.y v)
theorem Does.stack (l : Byte) (v : Word) : Does s (.s :: ps) { t with s := if t.e then word (hi t.s) l else v } :=
  h.tail (.stack l v)
theorem Does.spDown (k : Nat) : Does s (.s :: ps) { t with s := t.spDown k } := h.stack _ _
theorem Does.spUp (k : Nat) : Does s (.s :: ps) { t with s := t.spUp k } := h.stack _ _
theorem Does.direct (v : Word) : Does s (.d :: ps) { t with d := v } := h.tail (.direct v)
theorem Does.dataBank (v : Byte) : Does s (.dbr :: ps) { t with dbr := v } := h.tail (.dataBank v)
theorem Does.programBank (v : Byte) : Does s (.pbr :: ps) { t with pbr := v } := h.tail (.programBank v)
theorem Does.run (r : RunState) : Does s (.run :: ps) { t with run := r } := h.tail (.run r)
theorem Does.memory (m : Memory) (l : List Host.Cell) (hw : t.mem.wf = true → m.wf = true) :
    Does s (.memory :: ps) { t with mem := m, deviceWrites := l } := h.tail (.memory m l hw)
theorem Does.setN (b : Bool) : Does s (.flag .n :: ps) (t.setN b) := h.tail (.flag .n b nofun nofun)
theorem Does.setV (b : Bool) : Does s (.flag .v :: ps) (t.setV b) := h.tail (.flag .v b nofun nofun)
theorem Does.setD (b : Bool) : Does s (.flag .d :: ps) (t.setD b) := h.tail (.flag .d b nofun nofun)
theorem Does.setI (b : Bool) : Does s (.flag .i :: ps) (t.setI b) := h.tail (.flag .i b nofun nofun)
theorem Does.setZ (b : Bool) : Does s (.flag .z :: ps) (t.setZ b) := h.tail (.flag .z b nofun nofun)
theorem Does.setC (b : Bool) : Does s (.flag .c :: ps) (t.setC b) := h.tail (.flag .c b nofun nofun)
theorem Does.setNZ {w : Nat} (v : BitVec w) : Does s (.flag .z :: .flag .n :: ps) (t.setNZ v) := (h.setN _).setZ _
theorem Does.compare {w : Nat} (a m : BitVec w) : Does s (.flag .z :: .flag .n :: .flag .c :: ps) (t.compare a m) :=
  (h.setC _).setNZ _
theorem Does.applySum {w : Nat} (r : Sum w) :
    Does s (.flag .z :: .flag .n :: .acc :: .flag .v :: .flag .c :: ps) (t.applySum r) :=
  (((h.setC _).setV _).writeA _).setNZ _
theorem Does.setP (v : Byte) : Does s (statusParts ++ ps) (t.setP v) := h.tail (.status v)
theorem Does.switchMode (b : Bool) :
    Does s (.e :: .flag .m :: .flag .x :: .x :: .y :: .s :: ps) (t.switchMode b) := h.tail (.mode b)

end

/-! ### What the meanings that reach memory or branch do -/

theorem lda_does {o : Source} {s t : State} (h : lda o s = .ok t) : Does s [.flag .z, .flag .n, .acc] t := by
  obtain ⟨m, -, rfl⟩ := lda_ok h
  exact ((Does.refl.advance _).writeA m).setNZ m

theorem ldx_does {o : Source} {s t : State} (h : ldx o s = .ok t) : Does s [.flag .z, .flag .n, .x] t := by
  obtain ⟨m, -, rfl⟩ := ldx_ok h
  exact ((Does.refl.advance _).writeX m).setNZ m

theorem ldy_does {o : Source} {s t : State} (h : ldy o s = .ok t) : Does s [.flag .z, .flag .n, .y] t := by
  obtain ⟨m, -, rfl⟩ := ldy_ok h
  exact ((Does.refl.advance _).writeY m).setNZ m

theorem adc_does {o : Source} {s t : State} (h : adc o s = .ok t) :
    Does s [.flag .z, .flag .n, .acc, .flag .v, .flag .c] t := by
  obtain ⟨m, -, rfl⟩ := adc_ok h
  exact (Does.refl.advance _).applySum _

theorem sbc_does {o : Source} {s t : State} (h : sbc o s = .ok t) :
    Does s [.flag .z, .flag .n, .acc, .flag .v, .flag .c] t := by
  obtain ⟨m, -, rfl⟩ := sbc_ok h
  exact (Does.refl.advance _).applySum _

theorem logic_does {f : (w : Nat) → BitVec w → BitVec w → BitVec w} {o : Source} {s t : State}
    (h : logic f o s = .ok t) : Does s [.flag .z, .flag .n, .acc] t := by
  obtain ⟨m, -, rfl⟩ := logic_ok h
  exact ((Does.refl.advance _).writeA _).setNZ _

theorem cmp_does {o : Source} {s t : State} (h : cmp o s = .ok t) : Does s [.flag .z, .flag .n, .flag .c] t := by
  obtain ⟨m, -, rfl⟩ := cmp_ok h
  exact (Does.refl.advance _).compare _ _

theorem cpx_does {o : Source} {s t : State} (h : cpx o s = .ok t) : Does s [.flag .z, .flag .n, .flag .c] t := by
  obtain ⟨m, -, rfl⟩ := cpx_ok h
  exact (Does.refl.advance _).compare _ _

theorem cpy_does {o : Source} {s t : State} (h : cpy o s = .ok t) : Does s [.flag .z, .flag .n, .flag .c] t := by
  obtain ⟨m, -, rfl⟩ := cpy_ok h
  exact (Does.refl.advance _).compare _ _

theorem bit_does {o : MemMode} {s t : State} (h : bit o s = .ok t) : Does s [.flag .v, .flag .n, .flag .z] t := by
  obtain ⟨_, v, -, -, rfl⟩ := bit_ok h
  exact (((Does.refl.advance _).setZ _).setN _).setV _

theorem store_does {w : Width} {v : BitVec w.bits} {o : MemMode} {s t : State} (h : store w v o s = .ok t) :
    Does s [.memory] t := by
  obtain ⟨_, m, l, -, hw, rfl⟩ := store_ok h
  exact (Does.refl.advance _).memory m l hw

theorem shift_does {f : (w : Nat) → BitVec w → Bool → Shifted w} {o : MemMode} {s t : State}
    (h : shift f (.mem o) s = .ok t) : Does s [.flag .z, .flag .n, .memory, .flag .c] t := by
  obtain ⟨_, v, m, l, -, -, hw, rfl⟩ := shift_ok h
  exact (((Does.refl.advance _).setC _).memory m l hw).setNZ _

theorem modify_does {f : (w : Nat) → BitVec w → BitVec w} {o : MemMode} {s t : State}
    (h : modify f (.mem o) s = .ok t) : Does s [.flag .z, .flag .n, .memory] t := by
  obtain ⟨_, v, m, l, -, -, hw, rfl⟩ := modify_ok h
  exact ((Does.refl.advance _).memory m l hw).setNZ _

theorem testAndChange_does {f : (w : Nat) → BitVec w → BitVec w → BitVec w} {o : MemMode} {s t : State}
    (h : testAndChange f o s = .ok t) : Does s [.memory, .flag .z] t := by
  obtain ⟨_, v, m, l, -, -, hw, rfl⟩ := testAndChange_ok h
  exact ((Does.refl.advance _).setZ _).memory m l hw

theorem blockMove_does {f : (w : Nat) → BitVec w → BitVec w} {dst src : Byte} {s t : State}
    (h : blockMove f dst src s = .ok t) : Does s [.acc, .y, .x, .memory, .dbr] t := by
  obtain ⟨m, l, hw, rfl⟩ := blockMove_ok h
  have moved := ((((Does.refl.dataBank dst).memory m l hw).writeX
    (f s.wI.bits (s.xAt s.wI))).writeY (f s.wI.bits (s.yAt s.wI))).acc (s.c - 1)
  split
  · exact moved.advance 3
  · exact moved

theorem branch_does {b : Bool} {v : Byte} {s t : State} (h : branch b v s = .ok t) : Does s [] t := by
  obtain rfl := ok_inj h
  cases b
  · exact Does.refl.advance _
  · exact (Does.refl.advance _).pc _

theorem jumpInd_does {a : Word} {s t : State} (h : jumpInd a s = .ok t) : Does s [] t := by
  obtain ⟨_, rfl⟩ := jumpInd_ok h
  exact Does.refl.pc _

theorem jumpIndX_does {a : Word} {s t : State} (h : jumpIndX a s = .ok t) : Does s [] t := by
  obtain ⟨_, rfl⟩ := jumpIndX_ok h
  exact Does.refl.pc _

theorem jumpIndLong_does {a : Word} {s t : State} (h : jumpIndLong a s = .ok t) : Does s [.pbr] t := by
  obtain ⟨_, rfl⟩ := jumpIndLong_ok h
  exact (Does.refl.programBank (bankOf _)).pc (offsetOf _)

theorem callAbs_does {a : Word} {s t : State} (h : callAbs a s = .ok t) : Does s [.s, .memory] t := by
  obtain ⟨m, l, rfl, hw⟩ := callAbs_ok h
  exact ((Does.refl.memory m l hw).spDown 2).pc _

theorem callIndX_does {a : Word} {s t : State} (h : callIndX a s = .ok t) : Does s [.s, .memory] t := by
  obtain ⟨m, l, _, rfl, hw⟩ := callIndX_ok h
  exact ((Does.refl.memory m l hw).spDown 2).pc _

theorem callLong_does {a : Addr} {s t : State} (h : callLong a s = .ok t) : Does s [.pbr, .s, .memory] t := by
  obtain ⟨m, l, rfl, hw⟩ := callLong_ok h
  exact (((Does.refl.memory m l hw).spDown 3).pc _).programBank _

theorem push8_does {n : Nat} {v : Byte} {s t : State} (h : push8 (s.advance n) v = .ok t) : Does s [.s, .memory] t := by
  obtain ⟨m, l, rfl, hw⟩ := push8_keeps h
  exact ((Does.refl.advance n).memory m l hw).spDown 1

theorem push16_does {n : Nat} {v : Word} {s t : State} (h : push16 (s.advance n) v = .ok t) :
    Does s [.s, .memory] t := by
  obtain ⟨m, l, rfl, hw⟩ := push16_keeps h
  exact ((Does.refl.advance n).memory m l hw).spDown 2

theorem pushW_does {n : Nat} {w : Width} {v : BitVec w.bits} {s t : State} (h : pushW (s.advance n) w v = .ok t) :
    Does s [.s, .memory] t := by
  obtain ⟨m, l, rfl, hw⟩ := pushW_keeps h
  exact ((Does.refl.advance n).memory m l hw).spDown _

theorem pei_does {o : Byte} {s t : State} (h : pei o s = .ok t) : Does s [.s, .memory] t := by
  obtain ⟨m, l, rfl, hw⟩ := pei_ok h
  exact ((Does.refl.advance 2).memory m l hw).spDown 2

theorem pla_does {s t : State} (h : pla s = .ok t) : Does s [.flag .z, .flag .n, .acc, .s] t := by
  obtain ⟨-, rfl⟩ := pla_ok h
  exact (((Does.refl.advance 1).spUp _).writeA _).setNZ _

theorem plx_does {s t : State} (h : plx s = .ok t) : Does s [.flag .z, .flag .n, .x, .s] t := by
  obtain ⟨-, rfl⟩ := plx_ok h
  exact (((Does.refl.advance 1).spUp _).writeX _).setNZ _

theorem ply_does {s t : State} (h : ply s = .ok t) : Does s [.flag .z, .flag .n, .y, .s] t := by
  obtain ⟨-, rfl⟩ := ply_ok h
  exact (((Does.refl.advance 1).spUp _).writeY _).setNZ _

theorem plb_does {s t : State} (h : plb s = .ok t) : Does s [.flag .z, .flag .n, .dbr, .s] t := by
  obtain ⟨-, rfl⟩ := plb_ok h
  exact (((Does.refl.advance 1).spUp 1).dataBank _).setNZ _

theorem pld_does {s t : State} (h : pld s = .ok t) : Does s [.flag .z, .flag .n, .d, .s] t := by
  obtain ⟨-, rfl⟩ := pld_ok h
  exact (((Does.refl.advance 1).spUp 2).direct _).setNZ _

theorem plp_does {s t : State} (h : plp s = .ok t) : Does s (statusParts ++ [.s]) t := by
  obtain ⟨-, rfl⟩ := plp_ok h
  exact ((Does.refl.advance 1).spUp 1).setP _

theorem rts_does {s t : State} (h : rts s = .ok t) : Does s [.s] t := by
  obtain ⟨-, rfl⟩ := rts_ok h
  exact (Does.refl.spUp 2).pc _

theorem rtl_does {s t : State} (h : rtl s = .ok t) : Does s [.pbr, .s] t := by
  obtain ⟨_, rfl⟩ := rtl_ok h
  exact ((Does.refl.spUp 3).pc _).programBank _

theorem rti_does {s t : State} (h : rti s = .ok t) : Does s (.pbr :: (statusParts ++ [.s])) t := by
  obtain ⟨v, target, b, rfl⟩ := rti_ok h
  exact (((Does.refl.spUp _).setP v).pc target).programBank _

theorem interrupt_does {k : Event} {r : Word} {s t : State} (h : interrupt k r s = .ok t) :
    Does s [.pbr, .s, .memory, .flag .d, .flag .i] t := by
  obtain ⟨m, l, target, rfl, hw⟩ := interrupt_ok h
  exact (((((Does.refl.setI true).setD false).memory m l hw).spDown _).programBank 0).pc target

/-- BRK and COP (R340, R341). -/
theorem softInterrupt_does {k : Event} {s t : State} (h : softInterrupt k s = .ok t) :
    Does s [.pbr, .s, .memory, .flag .d, .flag .i] t := (Does.refl.advance 2).trans (interrupt_does h)

/-! ### What each instruction does -/

/-- Every instruction is a sequence of updates of the parts its mnemonic writes: one that reaches memory by the lemma of its
meaning, one over registers alone by the state it answers. -/
theorem exec_does {i : Instr} {s t : State} (h : exec i s = .next t) : Does s (writes (onAcc i) i.mnemonic) t := by
  cases i
  case stzDp | stzDpX | staDpXInd | staSr | styDp | staDp | stxDp | staDpIndLong | styAbs | staAbs | stxAbs
      | staLong | staDpIndY | staDpInd | staSrIndY | styDpX | staDpX | stxDpY | staDpIndLongY | staAbsY | stzAbs
      | staAbsX | stzAbsX | staLongX =>
    exact store_does (finish_next.1 h)
  case ldyDp | ldyAbs | ldyDpX | ldyAbsX => exact ldy_does (finish_next.1 h)
  case ldaDpXInd | ldaSr | ldaDp | ldaDpIndLong | ldaAbs | ldaLong | ldaDpIndY | ldaDpInd | ldaSrIndY | ldaDpX
      | ldaDpIndLongY | ldaAbsY | ldaAbsX | ldaLongX =>
    exact lda_does (finish_next.1 h)
  case ldxDp | ldxAbs | ldxDpY | ldxAbsY => exact ldx_does (finish_next.1 h)
  case oraDpXInd | oraSr | oraDp | oraDpIndLong | oraAbs | oraLong | oraDpIndY | oraDpInd | oraSrIndY | oraDpX
      | oraDpIndLongY | oraAbsY | oraAbsX | oraLongX | andDpXInd | andSr | andDp | andDpIndLong | andAbs | andLong
      | andDpIndY | andDpInd | andSrIndY | andDpX | andDpIndLongY | andAbsY | andAbsX | andLongX | eorDpXInd
      | eorSr | eorDp | eorDpIndLong | eorAbs | eorLong | eorDpIndY | eorDpInd | eorSrIndY | eorDpX
      | eorDpIndLongY | eorAbsY | eorAbsX | eorLongX =>
    exact logic_does (finish_next.1 h)
  case adcDpXInd | adcSr | adcDp | adcDpIndLong | adcAbs | adcLong | adcDpIndY | adcDpInd | adcSrIndY | adcDpX
      | adcDpIndLongY | adcAbsY | adcAbsX | adcLongX =>
    exact adc_does (finish_next.1 h)
  case sbcDpXInd | sbcSr | sbcDp | sbcDpIndLong | sbcAbs | sbcLong | sbcDpIndY | sbcDpInd | sbcSrIndY | sbcDpX
      | sbcDpIndLongY | sbcAbsY | sbcAbsX | sbcLongX =>
    exact sbc_does (finish_next.1 h)
  case aslDp | aslAbs | aslDpX | aslAbsX | rolDp | rolAbs | rolDpX | rolAbsX | lsrDp | lsrAbs | lsrDpX | lsrAbsX
      | rorDp | rorAbs | rorDpX | rorAbsX =>
    exact shift_does (finish_next.1 h)
  case cpyDp | cpyAbs => exact cpy_does (finish_next.1 h)
  case cmpDpXInd | cmpSr | cmpDp | cmpDpIndLong | cmpAbs | cmpLong | cmpDpIndY | cmpDpInd | cmpSrIndY | cmpDpX
      | cmpDpIndLongY | cmpAbsY | cmpAbsX | cmpLongX =>
    exact cmp_does (finish_next.1 h)
  case decDp | decAbs | decDpX | decAbsX | incDp | incAbs | incDpX | incAbsX => exact modify_does (finish_next.1 h)
  case cpxDp | cpxAbs => exact cpx_does (finish_next.1 h)
  case bpl | bmi | bvc | bvs | bra | bcc | bcs | bne | beq => exact branch_does (finish_next.1 h)
  case jsrAbs => exact callAbs_does (finish_next.1 h)
  case jsl => exact callLong_does (finish_next.1 h)
  case jmpInd => exact jumpInd_does (finish_next.1 h)
  case jmpIndX => exact jumpIndX_does (finish_next.1 h)
  case jmlInd => exact jumpIndLong_does (finish_next.1 h)
  case jsrIndX => exact callIndX_does (finish_next.1 h)
  case php | phk | phb => exact push8_does (finish_next.1 h)
  case phd | per | pea => exact push16_does (finish_next.1 h)
  case plp => exact plp_does (finish_next.1 h)
  case pld => exact pld_does (finish_next.1 h)
  case rti => exact rti_does (finish_next.1 h)
  case pha | phy | phx => exact pushW_does (finish_next.1 h)
  case rts => exact rts_does (finish_next.1 h)
  case pla => exact pla_does (finish_next.1 h)
  case rtl => exact rtl_does (finish_next.1 h)
  case ply => exact ply_does (finish_next.1 h)
  case plb => exact plb_does (finish_next.1 h)
  case plx => exact plx_does (finish_next.1 h)
  case mvp | mvn => exact blockMove_does (finish_next.1 h)
  case tsbDp | tsbAbs | trbDp | trbAbs => exact testAndChange_does (finish_next.1 h)
  case bitDp | bitAbs | bitDpX | bitAbsX => exact bit_does (finish_next.1 h)
  case brk | cop => exact softInterrupt_does (finish_next.1 h)
  case pei => exact pei_does (finish_next.1 h)
  case ldaImm | oraImm | andImm | eorImm | incAcc | decAcc | txa | tya =>
    cases h
    exact ((Does.refl.advance _).writeA _).setNZ _
  case tsc | tdc | xba =>
    cases h
    exact ((Does.refl.advance _).acc _).setNZ _
  case ldxImm | inx | dex | tax | tsx | tyx =>
    cases h
    exact ((Does.refl.advance _).writeX _).setNZ _
  case ldyImm | iny | dey | tay | txy =>
    cases h
    exact ((Does.refl.advance _).writeY _).setNZ _
  case adcImm | sbcImm =>
    cases h
    exact (Does.refl.advance _).applySum _
  case cmpImm | cpxImm | cpyImm =>
    cases h
    exact (Does.refl.advance _).compare _ _
  case aslAcc | lsrAcc | rolAcc | rorAcc =>
    cases h
    exact (((Does.refl.advance _).setC _).writeA _).setNZ _
  case bitImm =>
    cases h
    exact ((Does.refl.advance _).setZ _).weaken fun _ hz => .tail _ (.tail _ hz)
  case tcd =>
    cases h
    exact ((Does.refl.advance _).direct _).setNZ _
  case txs | tcs =>
    cases h
    exact (Does.refl.advance _).stack _ _
  case clc | sec =>
    cases h
    exact (Does.refl.advance _).setC _
  case cli | sei =>
    cases h
    exact (Does.refl.advance _).setI _
  case cld | sed =>
    cases h
    exact (Does.refl.advance _).setD _
  case clv =>
    cases h
    exact (Does.refl.advance _).setV _
  case rep | sep =>
    cases h
    exact (Does.refl.advance _).setP _
  case xce =>
    cases h
    exact ((Does.refl.advance _).setC _).switchMode _
  case wai | stp =>
    cases h
    exact (Does.refl.advance _).run _
  case nop | wdm =>
    cases h
    exact Does.refl.advance _
  case jmpAbs =>
    cases h
    exact Does.refl.pc _
  case brl =>
    cases h
    exact (Does.refl.advance _).pc _
  case jmlLong a =>
    cases h
    exact (Does.refl.programBank (bankOf a)).pc (offsetOf a)

/-- A part that differs after an instruction has it among its writers. -/
theorem writtenBy_of_changed {i : Instr} {s t : State} (h : exec i s = .next t) (p : Part) (hp : ¬ p.Same s t) :
    p.writtenBy i.mnemonic (onAcc i) = true :=
  writtenBy_of_mem_writes (Classical.byContradiction fun hn => hp ((exec_does h).same hn))

end Sys2Proof.Machine
end

section
/-!
SUPPORT. What a whole step can do (R405), and the invariants of R38 along it and at the reset.
-/
namespace Sys2Proof.Machine

/-- All that a step that answers a state can be (R405). -/
theorem step_next {s t : State} (h : step s = .next t) :
    doReset s.sample = .ok t ∨ enterNmi s.sample = .ok t ∨ enterIrq s.sample = .ok t ∨
    t = wakeUp s.sample ∨ t = s.sample ∨ ∃ i, fetch s.sample = .ok i ∧ exec i s.sample = .next t := by
  unfold step at h
  cases ha : chooseAction s.input s.sample <;> rw [ha] at h
  case refuseAbort => cases h
  case reset => exact .inl (finish_next.1 h)
  case takeNmi => exact .inr (.inl (finish_next.1 h))
  case takeIrq => exact .inr (.inr (.inl (finish_next.1 h)))
  case wake => cases h; exact .inr (.inr (.inr (.inl rfl)))
  case idle => cases h; exact .inr (.inr (.inr (.inr (.inl rfl))))
  case execute =>
    change executeOne s.sample = .next t at h
    unfold executeOne at h
    cases hf : fetch s.sample with
    | error e => rw [hf] at h; cases h
    | ok i => rw [hf] at h; exact .inr (.inr (.inr (.inr (.inr ⟨i, rfl, h⟩))))

/-- The reset sequence leaves emulation mode with all it forces, from any state (R38, R450). -/
theorem doReset_modeInv {s t : State} (h : doReset s = .ok t) : t.ModeInv := by
  rw [doReset_ok h]
  refine ⟨fun _ => ?_, fun _ => hi_word _ _, fun _ => ⟨hi_word _ _, hi_word _ _⟩⟩
  simp [State.flagM, State.flagX]

/-- Every step keeps the invariants of R38. -/
theorem step_keeps_modeInv {s t : State} (h : step s = .next t) (hs : s.ModeInv) : t.ModeInv := by
  rcases step_next h with h | h | h | rfl | rfl | ⟨i, -, h⟩
  · exact doReset_modeInv h
  · exact (interrupt_does h).keeps_modeInv hs
  · exact (interrupt_does h).keeps_modeInv hs
  · exact hs
  · exact hs
  · exact (exec_does h).keeps_modeInv hs

/-- Settles O15: the invariants hold after every primitive update, so after the updates of an entry or an instruction, and
the reset sets them up anew. -/
theorem stepKeepsInvariant : Obligations.StepKeepsInvariant :=
  fun _ _ hw hst hn h => step_keeps_modeInv h ⟨hw, hst, hn⟩

/-- Settles O14: State.reset is one fixed state, and every clause reads off a field of it. -/
theorem resetMeetsInvariant : Obligations.ResetMeetsInvariant :=
  ⟨⟨fun _ => ⟨rfl, rfl⟩, fun _ => rfl, fun _ => ⟨rfl, rfl⟩, rfl⟩, rfl, rfl, rfl, rfl, rfl, rfl, rfl, rfl, rfl, rfl, rfl, rfl⟩

end Sys2Proof.Machine
end

section
/-!
SUPPORT. The writers of each part of the state, read off the table (R21 to R26, R29 to R37, R41).
-/
namespace Sys2Proof.Machine

/-- Settles O17: E, M and X are among the parts of their writers alone. -/
theorem onlyModeInstructionsChangeWidths : Obligations.OnlyModeInstructionsChangeWidths := by
  intro i s t h
  have written := writtenBy_of_changed h
  refine ⟨fun he => of_decide_eq_true (written .e he), ?_⟩
  rintro (hm | hx)
  · exact of_decide_eq_true (written (.flag .m) hm)
  · exact of_decide_eq_true (written (.flag .x) hx)

/-- Settles O18, by the table. -/
theorem baseAndBankRegisterWriters : Obligations.BaseAndBankRegisterWriters := by
  intro i s t h
  have written := writtenBy_of_changed h
  exact ⟨fun hd => of_decide_eq_true (written .d hd), fun hb => of_decide_eq_true (written .dbr hb),
    fun hp => of_decide_eq_true (written .pbr hp)⟩

/-- Clearing the high byte of an index register changes nothing when it is zero. -/
theorem word_zero_lo {v : Word} (h : hi v = 0) : word 0 (lo v) = v := by rw [← h, word_hi_lo]

/-- Under the invariants of R38, REP leaves X and Y: where it would clear their high bytes they are zero (R320). -/
theorem rep_same_index {v : Byte} {s t : State} (hs : s.ModeInv) (h : exec (.rep v) s = .next t) : t.x = s.x ∧ t.y = s.y := by
  obtain ⟨hw, -, hn⟩ := hs
  obtain rfl : t = (s.advance 2).setP (s.p &&& ~~~v) := ok_inj (finish_next.1 h)
  rw [State.setP_x, State.setP_y]
  split
  · next hc =>
    have hX : s.flagX = true := by
      cases he : s.e with
      | true => exact (hw he).2
      | false =>
        have hbit : (s.p &&& ~~~v).getLsbD 4 = true := by simpa [he] using hc
        rw [BitVec.getLsbD_and, Bool.and_eq_true] at hbit
        exact hbit.1
    obtain ⟨hx, hy⟩ := hn hX
    exact ⟨word_zero_lo hx, word_zero_lo hy⟩
  · exact ⟨rfl, rfl⟩

theorem eq_rep_of_mnemonic {i : Instr} (h : i.mnemonic = .rep) : ∃ v, i = .rep v := by
  cases i
  case rep v => exact ⟨v, rfl⟩
  all_goals cases h

/-- Settles O19: the table's writers, but for REP, which R38 excludes as a writer of X and Y. -/
theorem dataRegisterWriters : Obligations.DataRegisterWriters := by
  intro i s t ⟨hw, hst, hn, _⟩ h
  have written := writtenBy_of_changed h
  have notRep : t.x ≠ s.x ∨ t.y ≠ s.y → i.mnemonic ≠ .rep := fun hne hr => by
    obtain ⟨v, rfl⟩ := eq_rep_of_mnemonic hr
    obtain ⟨hx, hy⟩ := rep_same_index ⟨hw, hst, hn⟩ h
    exact hne.elim (· hx) (· hy)
  refine ⟨fun hc => ?_, fun hx => ?_, fun hy => ?_, fun hs => of_decide_eq_true (written .s hs)⟩
  · exact (of_decide_eq_true (written .acc hc)).imp_right fun hacc => mem_of_onAcc hacc.2
  · exact List.mem_of_ne_of_mem (notRep (.inl hx)) (of_decide_eq_true (written .x hx))
  · exact List.mem_of_ne_of_mem (notRep (.inr hy)) (of_decide_eq_true (written .y hy))

/-- Settles O20, by the table. -/
theorem statusBitWriters : Obligations.StatusBitWriters := by
  intro i s t h
  have written := fun f => writtenBy_of_changed h (.flag f)
  exact ⟨fun hv => of_decide_eq_true (written .v hv), fun hd => of_decide_eq_true (written .d hd),
    fun hi => of_decide_eq_true (written .i hi), fun hc => of_decide_eq_true (written .c hc),
    fun hn => of_decide_eq_true (written .n hn), fun hz => of_decide_eq_true (written .z hz)⟩

/-- Settles O21: no mnemonic writes the platform's part, and RUN has its two writers. -/
theorem instructionsLeaveThePlatformAlone : Obligations.InstructionsLeaveThePlatformAlone := by
  intro i s t h
  have written := writtenBy_of_changed h
  have hplat : Part.Same s t .platform := Classical.byContradiction fun hne => Bool.false_ne_true (written .platform hne)
  simp only [Part.Same, Prod.mk.injEq] at hplat
  obtain ⟨hnmi, hmap, hvec, hin, hdraw⟩ := hplat
  exact ⟨hnmi, hmap, hvec, hin, hdraw, fun hr => of_decide_eq_true (written .run hr)⟩

end Sys2Proof.Machine
end

section
/-!
SUPPORT. What a pull finds after a push to RAM (R68).
-/
namespace Sys2Proof.Machine

/-- What pushed bytes leave: their slots are RAM, so each pull slot answers the byte pushed there. -/
theorem seen_pullSlot {s t : State} {bs : List Byte} (hw : s.CanWrite s.slot bs.length) (h : PushedAt s t.mem bs)
    (hl : bs.length ≤ 256) (hs : t.s = s.spDown bs.length) (he : t.e = s.e) (hmap : t.memMap = s.memMap) {j : Nat}
    (hj : j < bs.length) : t.Writable (t.pullSlot j) ∧ t.seen .stack (t.pullSlot j) = bs[bs.length - 1 - j] := by
  have hram : t.Writable (t.pullSlot j) := by
    rw [State.Writable, pullSlot_of_pushed hs he hj, hmap]
    exact hw _ (by omega)
  exact ⟨hram, (hram.seen .stack).trans (byteAt_pullSlot h hl hs he hj)⟩

/-- Pulling as many bytes as were pushed brings S back. -/
theorem spUp_of_pushed {s t : State} {n : Nat} (hs : t.s = s.spDown n) (he : t.e = s.e) : t.spUp n = s.s := by
  rw [s.spUp_of_spDown t he hs (Nat.le_refl n), Nat.sub_self, State.spDown_zero]

/-- The pushes write downwards from the slot at S. -/
theorem push16_of_canWrite {s : State} (hw : s.CanWrite s.slot 2) (v : Word) :
    ∃ m, PushedAt s m [hi v, lo v] ∧ push16 s v = .ok { s with mem := m, s := s.spDown 2 } := by
  obtain ⟨m, e, hp, -⟩ := pushAll_of_canWrite [hi v, lo v] s (by simp) hw
  exact ⟨m, hp, (push16_eq_pushAll s v).trans e⟩

theorem push8_of_canWrite {s : State} (hw : s.CanWrite s.slot 1) (v : Byte) :
    ∃ m, PushedAt s m [v] ∧ push8 s v = .ok { s with mem := m, s := s.spDown 1 } := by
  obtain ⟨m, e, hp, -⟩ := pushAll_of_canWrite [v] s (by simp) hw
  exact ⟨m, hp, (push8_eq_pushAll s v).trans e⟩

/-- A byte pulled right after it was pushed to RAM (R68). -/
theorem pull8_of_push8 {s t : State} {v : Byte} (hw : s.CanWrite s.slot 1) (h : push8 s v = .ok t) :
    t.byteAt (addr 0 s.s) = v ∧ pull8 t = .ok (v, { t with s := s.s }) := by
  obtain ⟨m, hp, e⟩ := push8_of_canWrite hw v
  obtain rfl := Except.ok.inj (h.symm.trans e)
  have found := fun j => seen_pullSlot (t := { s with mem := m, s := s.spDown 1 }) hw hp (by simp) rfl rfl rfl (j := j)
  obtain ⟨hram, hseen⟩ := found 0 (by simp)
  have hup := spUp_of_pushed (t := { s with mem := m, s := s.spDown 1 }) rfl rfl
  refine ⟨?_, ?_⟩
  · rw [← hup]
    exact (hram.seen .stack).symm.trans hseen
  · rw [pull8_of_canRead fun j hj => (found j hj).1.readable, hseen, hup]
    rfl

/-- A word pulled right after it was pushed to RAM (R68). -/
theorem pull16_of_push16 {s t : State} {v : Word} (hw : s.CanWrite s.slot 2) (h : push16 s v = .ok t) :
    pull16 t = .ok (v, { t with s := s.s }) := by
  obtain ⟨m, hp, e⟩ := push16_of_canWrite hw v
  obtain rfl := Except.ok.inj (h.symm.trans e)
  have found := fun j => seen_pullSlot (t := { s with mem := m, s := s.spDown 2 }) hw hp (by simp) rfl rfl rfl (j := j)
  have hup := spUp_of_pushed (t := { s with mem := m, s := s.spDown 2 }) rfl rfl
  rw [pull16_of_canRead fun j hj => (found j hj).1.readable, hup, State.valueAt, (found 0 (by simp)).2,
    (found 1 (by simp)).2]
  simp

/-- Settles O26: the pushes by what a sequence of pushes does, the pulls after them by what their slots hold. -/
theorem stackPrimitives : Obligations.StackPrimitives :=
  ⟨fun _ _ => ⟨rfl, rfl⟩, fun _ v hw => push16_of_canWrite hw v, fun _ _ _ hw h => pull8_of_push8 hw h,
    fun _ _ _ hw h => pull16_of_push16 hw h⟩

end Sys2Proof.Machine
end

section
/-!
SUPPORT. An operand form's bytes are the form's instruction, and the instruction means what its mnemonic does to the operand
(R101, R102).
-/
namespace Sys2Proof.Machine

/-! ### The bytes of an instruction, by operand format -/

theorem encodes_implied {op : Byte} {i : Instr} (h : shapeOf op = some (.implied i)) (s : State) : Encodes s [op] i :=
  decode_implied h _ _

theorem encodes_one {op : Byte} {f : Byte → Instr} (h : shapeOf op = some (.one f)) (s : State) (b : Byte) :
    Encodes s [op, b] (f b) := decode_one h _ _ b

theorem encodes_two {op : Byte} {f : Word → Instr} (h : shapeOf op = some (.two f)) (s : State) (v : Word) :
    Encodes s (op :: bytes2 v) (f v) := decode_two h _ _ v

theorem encodes_three {op : Byte} {f : Addr → Instr} (h : shapeOf op = some (.three f)) (s : State) (a : Addr) :
    Encodes s (op :: bytes3 a) (f a) := decode_three h _ _ a

/-! ### The forms of a mnemonic -/

/-- Each form in the table, of the operand bytes `encoded` gives, is an instruction that does `meaning` with its operand. -/
def Means {α : Type} (form : α → Option (Byte × Instr)) (encoded : α → List Byte) (meaning : α → State → Acc State) : Prop :=
  ∀ (s : State) (o : α) (op : Byte) (i : Instr), form o = some (op, i) →
    Encodes s (op :: encoded o) i ∧ exec i s = finish (meaning o s)

theorem staForm_means : Means staForm MemMode.encoded sta := by
  intro s o op i h
  cases o <;> cases h
  case abs | absX | absY => exact ⟨encodes_two rfl s _, rfl⟩
  case long | longX => exact ⟨encodes_three rfl s _, rfl⟩
  all_goals exact ⟨encodes_one rfl s _, rfl⟩

theorem stzForm_means : Means stzForm MemMode.encoded stz := by
  intro s o op i h
  cases o <;> cases h
  case abs | absX => exact ⟨encodes_two rfl s _, rfl⟩
  all_goals exact ⟨encodes_one rfl s _, rfl⟩

theorem stxForm_means : Means stxForm MemMode.encoded stx := by
  intro s o op i h
  cases o <;> cases h
  case abs => exact ⟨encodes_two rfl s _, rfl⟩
  all_goals exact ⟨encodes_one rfl s _, rfl⟩

theorem styForm_means : Means styForm MemMode.encoded sty := by
  intro s o op i h
  cases o <;> cases h
  case abs => exact ⟨encodes_two rfl s _, rfl⟩
  all_goals exact ⟨encodes_one rfl s _, rfl⟩

theorem tsbForm_means : Means tsbForm MemMode.encoded tsb := by
  intro s o op i h
  cases o <;> cases h
  case abs => exact ⟨encodes_two rfl s _, rfl⟩
  case dp => exact ⟨encodes_one rfl s _, rfl⟩

theorem trbForm_means : Means trbForm MemMode.encoded trb := by
  intro s o op i h
  cases o <;> cases h
  case abs => exact ⟨encodes_two rfl s _, rfl⟩
  case dp => exact ⟨encodes_one rfl s _, rfl⟩

/-- The mnemonics with an accumulator form: their four memory forms are the same modes. -/
theorem targetForm_means :
    ∀ r ∈ [(aslForm, asl), (lsrForm, lsr), (rolForm, rol), (rorForm, ror), (incForm, inc), (decForm, dec)],
      Means r.1 Target.encoded r.2 := by
  intro r hr s o op i h
  simp only [List.mem_cons, List.not_mem_nil, or_false] at hr
  cases o with
  | acc =>
    rcases hr with rfl | rfl | rfl | rfl | rfl | rfl <;> cases h <;> exact ⟨encodes_implied rfl s, rfl⟩
  | mem m =>
    cases m
    case dp | dpX =>
      rcases hr with rfl | rfl | rfl | rfl | rfl | rfl <;> cases h <;> exact ⟨encodes_one rfl s _, rfl⟩
    case abs | absX =>
      rcases hr with rfl | rfl | rfl | rfl | rfl | rfl <;> cases h <;> exact ⟨encodes_two rfl s _, rfl⟩
    all_goals rcases hr with rfl | rfl | rfl | rfl | rfl | rfl <;> cases h

theorem exec_ldaForm {o : Source} {op : Byte} {i : Instr} (h : ldaForm o = some (op, i)) (s : State) :
    exec i s = finish (lda o s) := by
  cases o with
  | imm v => cases h; rfl
  | mem m => cases m <;> cases h <;> rfl

end Sys2Proof.Machine
end

section
/-!
SUPPORT. Where the machine stops (R69, R70, R400): every operation stops only at a byte that MEM refuses.
-/
namespace Sys2Proof.Machine

/-! ### Byte accesses, by the kind of the address -/

theorem read8_of_unmapped {s : State} {a : Addr} (h : kindAt s.memMap a.toNat = none) (k : Access) :
    read8 s k a = .error (.unmapped a) := by
  unfold read8
  rw [h]

theorem write8_of_unmapped {s : State} {a : Addr} (h : kindAt s.memMap a.toNat = none) (k : Access) (v : Byte) :
    write8 s k a v = .error (.unmapped a) := by
  unfold write8
  rw [h]

theorem write8_of_rom {s : State} {a : Addr} (h : kindAt s.memMap a.toNat = some .rom) (k : Access) (v : Byte) :
    write8 s k a v = .error (.romWrite a) := by
  unfold write8
  rw [h]

/-- A device refuses the accesses beside dummy cycles where these have side effects that are not called harmless (R70). -/
theorem deviceTakes_iff {k : Access} {effects harmless : Bool} :
    deviceTakes k effects harmless = true ↔ ¬ ((k = .pointer ∨ k = .exposed) ∧ effects = true ∧ harmless = false) := by
  cases k <;> cases effects <;> cases harmless <;> decide

theorem read8_of_untaken {s : State} {k : Access} {a : Addr} {effects harmless : Bool}
    (h : kindAt s.memMap a.toNat = some (.device effects harmless)) (ht : ¬ deviceTakes k effects harmless = true) :
    read8 s k a = .error (.deviceAccess a) := by
  unfold read8
  rw [h]
  exact if_neg ht

theorem write8_of_untaken {s : State} {k : Access} {a : Addr} {effects harmless : Bool}
    (h : kindAt s.memMap a.toNat = some (.device effects harmless)) (ht : ¬ deviceTakes k effects harmless = true)
    (v : Byte) : write8 s k a v = .error (.deviceAccess a) := by
  unfold write8
  rw [h]
  exact if_neg ht

theorem read8_of_ramOrRom {s : State} {a : Addr} (h : s.RamOrRom a) (k : Access) : read8 s k a = .ok (s.byteAt a) := by
  rw [read8_of_readable h.readable, h.seen]

/-! ### Operations that stop at the map alone -/

/-- If the operation stops, then at a byte that the map of `s` refuses. -/
def StopsAtMap {α : Type} (s : State) (x : Acc α) : Prop := ∀ r, x = .error r → Refused s r

/-- The map alone says where an operation stops. -/
theorem StopsAtMap.of_map {α : Type} {s t : State} {x : Acc α} (h : StopsAtMap t x) (e : t.memMap = s.memMap) :
    StopsAtMap s x := by
  intro r hr
  have refused := h r hr
  rwa [Refused, e] at refused

theorem StopsAtMap.pure {α : Type} (s : State) (a : α) : StopsAtMap s (pure a : Acc α) := nofun

theorem StopsAtMap.bind {α β : Type} {s : State} {x : Acc α} {f : α → Acc β} (hx : StopsAtMap s x)
    (hf : ∀ a, x = .ok a → StopsAtMap s (f a)) : StopsAtMap s (x >>= f) := by
  intro r h
  rcases bind_error h with h | ⟨a, ha, h⟩
  · exact hx r h
  · exact hf a ha r h

/-- An operation followed by updates that reach no memory. -/
theorem StopsAtMap.andPure {α β : Type} {s : State} {x : Acc α} {f : α → β} (hx : StopsAtMap s x) :
    StopsAtMap s (x >>= fun a => Pure.pure (f a)) := hx.bind fun _ _ => .pure _ _

theorem read8_stops (s : State) (k : Access) (a : Addr) : StopsAtMap s (read8 s k a) := fun _ => read8_error

theorem write8_stops (s : State) (k : Access) (a : Addr) (v : Byte) : StopsAtMap s (write8 s k a v) := fun _ => write8_error

theorem read16_stops (s : State) (k : Access) (ea : EA) : StopsAtMap s (read16 s k ea) :=
  (read8_stops _ _ _).bind fun _ _ => (read8_stops _ _ _).andPure

theorem read24_stops (s : State) (k : Access) (ea : EA) : StopsAtMap s (read24 s k ea) :=
  (read16_stops _ _ _).bind fun _ _ => (read8_stops _ _ _).andPure

theorem readW_stops (s : State) (k : Access) (ea : EA) (w : Width) : StopsAtMap s (readW s k ea w) := by
  cases w with
  | w8 => exact read8_stops _ _ _
  | w16 => exact read16_stops _ _ _

/-- A byte write followed by another of the state it leaves. -/
theorem write8_twice_stops (s : State) (k : Access) (a b : Addr) (u v : Byte) :
    StopsAtMap s (write8 s k a u >>= fun s => write8 s k b v) := by
  refine (write8_stops _ _ _ _).bind fun t ht => ?_
  obtain ⟨m, l, rfl, -⟩ := write8_keeps ht
  exact (write8_stops _ _ _ _).of_map rfl

theorem storeW_stops (s : State) (k : Access) (ea : EA) (w : Width) (v : BitVec w.bits) :
    StopsAtMap s (storeW s k ea w v) := by
  cases w with
  | w8 => exact write8_stops _ _ _ _
  | w16 => exact write8_twice_stops _ _ _ _ _ _

theorem writeBackW_stops (s : State) (ea : EA) (w : Width) (v : BitVec w.bits) : StopsAtMap s (writeBackW s ea w v) := by
  cases w with
  | w8 => exact write8_stops _ _ _ _
  | w16 => exact write8_twice_stops _ _ _ _ _ _

theorem ea_stops (s : State) (m : MemMode) : StopsAtMap s (m.ea s) := by
  cases m
  case abs | absX | absY | long | longX | dp | dpX | dpY | sr => exact .pure _ _
  case dpIndLong | dpIndLongY => exact (read24_stops _ _ _).andPure
  all_goals exact (read16_stops _ _ _).andPure

theorem load_stops (s : State) (w : Width) (o : Source) : StopsAtMap s (o.load s w) := by
  cases o with
  | imm v => exact .pure _ _
  | mem m => exact (ea_stops s m).bind fun _ _ => readW_stops _ _ _ _

theorem push8_stops (s : State) (v : Byte) : StopsAtMap s (push8 s v) := (write8_stops _ _ _ _).andPure

theorem pushAll_stops : ∀ (bs : List Byte) (s : State), StopsAtMap s (pushAll s bs)
  | [], s => .pure s s
  | b :: bs, s => by
    refine (push8_stops s b).bind fun t ht => ?_
    obtain ⟨m, l, rfl, -⟩ := push8_keeps ht
    exact (pushAll_stops bs _).of_map rfl

theorem push16_stops (s : State) (v : Word) : StopsAtMap s (push16 s v) := by
  rw [push16_eq_pushAll]
  exact pushAll_stops _ s

theorem pushW_stops (s : State) (w : Width) (v : BitVec w.bits) : StopsAtMap s (pushW s w v) := by
  rw [pushW_eq_pushAll]
  exact pushAll_stops _ s

theorem pull8_stops (s : State) : StopsAtMap s (pull8 s) :=
  StopsAtMap.andPure ((read8_stops { s with s := s.spUp 1 } _ _).of_map rfl)

theorem pull16_stops (s : State) : StopsAtMap s (pull16 s) := by
  refine (pull8_stops s).bind fun q h => ?_
  obtain ⟨-, -, e⟩ := pull8_ok h
  exact ((pull8_stops q.2).of_map (by rw [e])).andPure

theorem pullW_stops (s : State) (w : Width) : StopsAtMap s (pullW s w) := by
  cases w with
  | w8 => exact pull8_stops s
  | w16 => exact pull16_stops s

/-! ### The meanings that reach memory -/

theorem store_stops (w : Width) (v : BitVec w.bits) (m : MemMode) (s : State) : StopsAtMap s (store w v m s) :=
  (ea_stops s m).bind fun _ _ => (storeW_stops (s.advance _) _ _ _ _).of_map rfl

theorem bit_stops (m : MemMode) (s : State) : StopsAtMap s (bit m s) :=
  (ea_stops s m).bind fun _ _ => (readW_stops _ _ _ _).andPure

theorem testAndChange_stops (f : (w : Nat) → BitVec w → BitVec w → BitVec w) (m : MemMode) (s : State) :
    StopsAtMap s (testAndChange f m s) :=
  (ea_stops s m).bind fun _ _ => (readW_stops _ _ _ _).bind fun _ _ => (writeBackW_stops _ _ _ _).of_map rfl

theorem modify_stops (f : (w : Nat) → BitVec w → BitVec w) (m : MemMode) (s : State) :
    StopsAtMap s (modify f (.mem m) s) :=
  (ea_stops s m).bind fun _ _ => (readW_stops _ _ _ _).bind fun _ _ =>
    ((writeBackW_stops (s.advance _) _ _ _).of_map rfl).andPure

theorem shift_stops (f : (w : Nat) → BitVec w → Bool → Shifted w) (m : MemMode) (s : State) :
    StopsAtMap s (shift f (.mem m) s) :=
  (ea_stops s m).bind fun _ _ => (readW_stops _ _ _ _).bind fun _ _ =>
    ((writeBackW_stops (State.setC (s.advance _) _) _ _ _).of_map rfl).andPure

theorem blockMove_stops (f : (w : Nat) → BitVec w → BitVec w) (dst src : Byte) (s : State) :
    StopsAtMap s (blockMove f dst src s) :=
  ((read8_stops { s with dbr := dst } _ _).of_map rfl).bind fun _ _ =>
    ((write8_stops { s with dbr := dst } _ _ _).of_map rfl).andPure

theorem callAbs_stops (a : Word) (s : State) : StopsAtMap s (callAbs a s) := (push16_stops _ _).andPure

theorem callIndX_stops (a : Word) (s : State) : StopsAtMap s (callIndX a s) := by
  refine (push16_stops _ _).bind fun t ht => ?_
  obtain ⟨m, l, rfl, -⟩ := push16_keeps ht
  exact ((read16_stops _ _ _).of_map rfl).andPure

theorem callLong_stops (a : Addr) (s : State) : StopsAtMap s (callLong a s) := by
  refine (push8_stops _ _).bind fun t ht => ?_
  obtain ⟨m, l, rfl, -⟩ := push8_keeps ht
  exact ((push16_stops _ _).of_map rfl).andPure

theorem pei_stops (o : Byte) (s : State) : StopsAtMap s (pei o s) :=
  (read16_stops _ _ _).bind fun _ _ => (push16_stops (s.advance 2) _).of_map rfl

theorem rtl_stops (s : State) : StopsAtMap s (rtl s) := by
  refine ((pull16_stops (s.advance 1)).of_map rfl).bind fun q h => ?_
  obtain ⟨-, -, e⟩ := pull16_ok h
  exact ((pull8_stops q.2).of_map (by rw [e])).andPure

theorem rti_stops (s : State) : StopsAtMap s (rti s) := by
  refine ((pull8_stops (s.advance 1)).of_map rfl).bind fun q h => ?_
  obtain ⟨-, -, e⟩ := pull8_ok h
  have map1 : (q.2.setP q.1).memMap = s.memMap := by rw [State.setP_memMap, e]; rfl
  refine ((pull16_stops (q.2.setP q.1)).of_map map1).bind fun q' h' => ?_
  obtain ⟨-, -, e'⟩ := pull16_ok h'
  have map2 : q'.2.memMap = s.memMap := by rw [e']; exact map1
  dsimp only
  split
  · exact .pure _ _
  · exact StopsAtMap.andPure ((pull8_stops { q'.2 with pc := q'.1 }).of_map map2)

theorem interrupt_stops (k : Event) (r : Word) (s : State) : StopsAtMap s (interrupt k r s) := by
  rw [interrupt_pushes]
  refine (pushAll_stops _ s).bind fun u hu => ?_
  obtain ⟨m, l, rfl, -⟩ := pushAll_keeps hu
  exact ((read16_stops _ _ _).of_map rfl).andPure

theorem softInterrupt_stops (k : Event) (s : State) : StopsAtMap s (softInterrupt k s) :=
  (interrupt_stops k _ (s.advance 2)).of_map rfl

/-! ### The instructions -/

/-- Every instruction is an operation that stops at the map alone: one that reaches memory by the lemma of its meaning, one
over registers alone always answers. -/
theorem exec_stops (i : Instr) (s : State) : ∃ x, exec i s = finish x ∧ StopsAtMap s x := by
  cases i
  case stzDp | stzDpX | staDpXInd | staSr | styDp | staDp | stxDp | staDpIndLong | styAbs | staAbs | stxAbs
      | staLong | staDpIndY | staDpInd | staSrIndY | styDpX | staDpX | stxDpY | staDpIndLongY | staAbsY | stzAbs
      | staAbsX | stzAbsX | staLongX =>
    exact ⟨_, rfl, store_stops _ _ _ s⟩
  case ldyDp | ldyAbs | ldyDpX | ldyAbsX | ldxDp | ldxAbs | ldxDpY | ldxAbsY | cpyDp | cpyAbs | cpxDp | cpxAbs =>
    exact ⟨_, rfl, (load_stops s s.wI _).andPure⟩
  case ldaDpXInd | ldaSr | ldaDp | ldaDpIndLong | ldaAbs | ldaLong | ldaDpIndY | ldaDpInd | ldaSrIndY | ldaDpX
      | ldaDpIndLongY | ldaAbsY | ldaAbsX | ldaLongX
      | oraDpXInd | oraSr | oraDp | oraDpIndLong | oraAbs | oraLong | oraDpIndY | oraDpInd | oraSrIndY | oraDpX
      | oraDpIndLongY | oraAbsY | oraAbsX | oraLongX | andDpXInd | andSr | andDp | andDpIndLong | andAbs | andLong
      | andDpIndY | andDpInd | andSrIndY | andDpX | andDpIndLongY | andAbsY | andAbsX | andLongX | eorDpXInd
      | eorSr | eorDp | eorDpIndLong | eorAbs | eorLong | eorDpIndY | eorDpInd | eorSrIndY | eorDpX
      | eorDpIndLongY | eorAbsY | eorAbsX | eorLongX
      | adcDpXInd | adcSr | adcDp | adcDpIndLong | adcAbs | adcLong | adcDpIndY | adcDpInd | adcSrIndY | adcDpX
      | adcDpIndLongY | adcAbsY | adcAbsX | adcLongX
      | sbcDpXInd | sbcSr | sbcDp | sbcDpIndLong | sbcAbs | sbcLong | sbcDpIndY | sbcDpInd | sbcSrIndY | sbcDpX
      | sbcDpIndLongY | sbcAbsY | sbcAbsX | sbcLongX
      | cmpDpXInd | cmpSr | cmpDp | cmpDpIndLong | cmpAbs | cmpLong | cmpDpIndY | cmpDpInd | cmpSrIndY | cmpDpX
      | cmpDpIndLongY | cmpAbsY | cmpAbsX | cmpLongX =>
    exact ⟨_, rfl, (load_stops s s.wA _).andPure⟩
  case aslDp | aslAbs | aslDpX | aslAbsX | rolDp | rolAbs | rolDpX | rolAbsX | lsrDp | lsrAbs | lsrDpX | lsrAbsX
      | rorDp | rorAbs | rorDpX | rorAbsX =>
    exact ⟨_, rfl, shift_stops _ _ s⟩
  case decDp | decAbs | decDpX | decAbsX | incDp | incAbs | incDpX | incAbsX => exact ⟨_, rfl, modify_stops _ _ s⟩
  case tsbDp | tsbAbs | trbDp | trbAbs => exact ⟨_, rfl, testAndChange_stops _ _ s⟩
  case bitDp | bitAbs | bitDpX | bitAbsX => exact ⟨_, rfl, bit_stops _ s⟩
  case mvp | mvn => exact ⟨_, rfl, blockMove_stops _ _ _ s⟩
  case jsrAbs => exact ⟨_, rfl, callAbs_stops _ s⟩
  case jsrIndX => exact ⟨_, rfl, callIndX_stops _ s⟩
  case jsl => exact ⟨_, rfl, callLong_stops _ s⟩
  case jmpInd | jmpIndX => exact ⟨_, rfl, (read16_stops s _ _).andPure⟩
  case jmlInd => exact ⟨_, rfl, (read24_stops s _ _).andPure⟩
  case php | phk | phb => exact ⟨_, rfl, (push8_stops (s.advance 1) _).of_map rfl⟩
  case phd => exact ⟨_, rfl, (push16_stops (s.advance 1) _).of_map rfl⟩
  case per | pea => exact ⟨_, rfl, (push16_stops (s.advance 3) _).of_map rfl⟩
  case pei => exact ⟨_, rfl, pei_stops _ s⟩
  case pha | phy | phx => exact ⟨_, rfl, (pushW_stops (s.advance 1) _ _).of_map rfl⟩
  case plp | plb => exact ⟨_, rfl, StopsAtMap.andPure ((pull8_stops (s.advance 1)).of_map rfl)⟩
  case pld | rts => exact ⟨_, rfl, StopsAtMap.andPure ((pull16_stops (s.advance 1)).of_map rfl)⟩
  case pla | plx | ply => exact ⟨_, rfl, StopsAtMap.andPure ((pullW_stops (s.advance 1) _).of_map rfl)⟩
  case rtl => exact ⟨_, rfl, rtl_stops s⟩
  case rti => exact ⟨_, rfl, rti_stops s⟩
  case brk | cop => exact ⟨_, rfl, softInterrupt_stops _ s⟩
  all_goals exact ⟨_, rfl, .pure _ _⟩

theorem exec_ne_fault (i : Instr) (s : State) (f : Fault) : exec i s ≠ .fault f := by
  obtain ⟨x, e, -⟩ := exec_stops i s
  rw [e]
  exact finish_ne_fault x f

theorem exec_refused {i : Instr} {s : State} {r : Refusal} (h : exec i s = .refused r) : Refused s r := by
  obtain ⟨x, e, stops⟩ := exec_stops i s
  rw [e] at h
  exact stops r (finish_refused.1 h)

/-- RAM refuses nothing. -/
theorem State.AllRam.not_refused {s : State} (h : s.AllRam) (r : Refusal) : ¬ Refused s r := by
  rintro ⟨a, ⟨-, e⟩ | ⟨-, e⟩ | ⟨-, e⟩⟩ <;> rw [h a] at e <;> cases e

/-- Settles O23: an instruction has no fault to stop with, and RAM refuses nothing. -/
theorem everyInstructionCompletesOnRam : Obligations.EveryInstructionCompletesOnRam := by
  intro i s hram
  cases h : exec i s with
  | next t => exact ⟨t, rfl⟩
  | fault f => exact absurd h (exec_ne_fault i s f)
  | refused r => exact absurd (exec_refused h) (hram.not_refused r)

/-! ### The step -/

theorem step_ne_fault (s : State) (f : Fault) : step s ≠ .fault f := by
  unfold step
  cases chooseAction s.input s.sample with
  | refuseAbort | wake | idle => nofun
  | reset | takeNmi | takeIrq => exact finish_ne_fault _ f
  | execute =>
    show executeOne s.sample ≠ _
    unfold executeOne
    cases fetch s.sample with
    | error e => exact finish_ne_fault _ f
    | ok i => exact exec_ne_fault i _ f

/-- A fetch whose opcode byte is refused refuses the step. -/
theorem step_of_fetch_refused {s : State} {r : Refusal} (hx : s.Executes)
    (h : read8 s.sample .fetch (s.fetchAddr 0) = .error r) : step s = .refused r := by
  have hf : fetch s.sample = .error r := by
    have h : read8 s.sample .fetch (s.sample.fetchAddr 0) = .error r := h
    unfold fetch fetchBytes
    rw [h]
    rfl
  unfold step
  rw [hx]
  show executeOne s.sample = _
  unfold executeOne
  rw [hf]
  rfl

/-! ### Loads and stores whose bytes are refused -/

theorem lda_of_refused {s : State} {m : MemMode} {ea : EA} {r : Refusal} (he : m.ea s = .ok ea)
    (h : readW s m.access ea s.wA = .error r) : lda (.mem m) s = .error r := by
  show ((m.ea s >>= fun ea => readW s m.access ea s.wA) >>= _) = _
  rw [he]
  show (readW s m.access ea s.wA >>= _) = _
  rw [h]
  rfl

/-- A byte write does not see PC. -/
theorem write8_advance (s : State) (n : Nat) (k : Access) (a : Addr) (v : Byte) :
    write8 (s.advance n) k a v = (write8 s k a v).map fun t => t.advance n := by
  unfold write8
  rw [State.advance_memMap]
  split
  · rfl
  · rfl
  · split <;> rfl
  · rfl

/-- A store is refused wherever PC stands. -/
theorem storeW_advance_of_refused {s : State} {k : Access} {ea : EA} {w : Width} {v : BitVec w.bits} {r : Refusal}
    (h : storeW s k ea w v = .error r) (n : Nat) : storeW (s.advance n) k ea w v = .error r := by
  cases w with
  | w8 =>
    have h : write8 s k (ea 0) v = .error r := h
    show write8 (s.advance n) k (ea 0) v = _
    rw [write8_advance, h]
    rfl
  | w16 =>
    show (write8 (s.advance n) k (ea 0) (lo v) >>= fun s => write8 s k (ea 1) (hi v)) = _
    rw [write8_advance]
    rcases bind_error h with h0 | ⟨t, h0, h1⟩
    · rw [h0]; rfl
    · rw [h0]
      show write8 (t.advance n) k (ea 1) (hi v) = _
      rw [write8_advance, h1]
      rfl

theorem sta_of_refused {s : State} {m : MemMode} {ea : EA} {r : Refusal} (he : m.ea s = .ok ea)
    (h : storeW s m.access ea s.wA (s.accAt s.wA) = .error r) : sta m s = .error r := by
  show (m.ea s >>= fun ea => storeW (s.advance (1 + m.bytes)) m.access ea s.wA (s.accAt s.wA)) = _
  rw [he]
  exact storeW_advance_of_refused h _

/-- One byte stored in RAM. -/
theorem storedAt_set (m : Memory) (a : Addr) (v : Byte) : StoredAt m (m.set a.toNat v) (fun _ => a) .w8 v := by
  intro b
  rw [get_write]
  by_cases hb : b = a <;> simp [hb]

/-- What a byte access answers, for each kind of address (R69, R70). -/
theorem byteAccess_by_kind (s : State) (k : Access) (a : Addr) (v : Byte) :
    (kindAt s.memMap a.toNat = none → read8 s k a = .error (.unmapped a) ∧ write8 s k a v = .error (.unmapped a)) ∧
    (kindAt s.memMap a.toNat = some .rom → read8 s k a = .ok (s.byteAt a) ∧ write8 s k a v = .error (.romWrite a)) ∧
    (kindAt s.memMap a.toNat = some .ram → read8 s k a = .ok (s.byteAt a) ∧
      ∃ m, StoredAt s.mem m (fun _ => a) .w8 v ∧ write8 s k a v = .ok { s with mem := m }) ∧
    ∀ effects harmless, kindAt s.memMap a.toNat = some (.device effects harmless) →
      if (k = .pointer ∨ k = .exposed) ∧ effects = true ∧ harmless = false
      then read8 s k a = .error (.deviceAccess a) ∧ write8 s k a v = .error (.deviceAccess a)
      else read8 s k a = .ok (Config.deviceByte s.deviceWrites s.draw k a) ∧
        write8 s k a v = .ok { s with deviceWrites := (a.toNat, v) :: s.deviceWrites } := by
  refine ⟨fun h => ⟨read8_of_unmapped h k, write8_of_unmapped h k v⟩,
    fun h => ⟨read8_of_ramOrRom (.inr h) k, write8_of_rom h k v⟩,
    fun h => ⟨read8_of_ramOrRom (.inl h) k, _, storedAt_set _ a v, write8_of_writable h k v⟩, fun effects harmless h => ?_⟩
  split
  · next hk =>
    have untaken : ¬ deviceTakes k effects harmless = true := fun ht => deviceTakes_iff.1 ht hk
    exact ⟨read8_of_untaken h untaken, write8_of_untaken h untaken v⟩
  · next hk =>
    have taken : s.TakenByDevice k a := ⟨effects, harmless, h, deviceTakes_iff.2 hk⟩
    exact ⟨by rw [read8_of_readable taken.readable, taken.seen], write8_of_takenByDevice taken v⟩

/-- Settles O24: nothing ends in a fault; a refusal is that of a byte access, and each byte access answers by the kind of
its address; LDA, STA and the fetch pass it on. -/
theorem instructionsStopOnlyAtTheMap : Obligations.InstructionsStopOnlyAtTheMap := by
  refine ⟨step_ne_fault, fun i s => ⟨exec_ne_fault i s, fun r => exec_refused⟩, byteAccess_by_kind, ?_,
    fun s r => step_of_fetch_refused⟩
  refine fun s o op i ea r he => ⟨fun hform h => ?_, fun hform h => ?_⟩
  · rw [exec_ldaForm hform, lda_of_refused he h]
    rfl
  · rw [(staForm_means s o op i hform).2, sta_of_refused he h]
    rfl

end Sys2Proof.Machine
end

section
/-!
SUPPORT. What every step keeps of memory, which instructions change it, and what a load finds after a store (R62, R65).
-/
namespace Sys2Proof.Machine

/-- Every update keeps the canonical form of memory: but one, they do not touch it. -/
theorem Update.keeps_wf {ps : List Part} {s t : State} (h : Update s ps t) (hw : s.mem.wf = true) : t.mem.wf = true := by
  cases h with
  | memory m l hm => exact hm hw
  | status v => rwa [State.setP_mem]
  | mode b => cases b <;> exact hw
  | _ => exact hw

theorem Does.keeps_wf {ps : List Part} {s t : State} (h : Does s ps t) (hw : s.mem.wf = true) : t.mem.wf = true := by
  induction h with
  | refl => exact hw
  | tail _ hu ih => exact hu.keeps_wf ih
  | weaken _ _ ih => exact ih

/-- Settles O16: the entries and the instructions are sequences of updates, and the reset draws RAM in canonical form. -/
theorem stepKeepsMemoryCanonical : Obligations.StepKeepsMemoryCanonical := by
  intro s t hw h
  rcases step_next h with h | h | h | rfl | rfl | ⟨i, -, h⟩
  · rw [doReset_ok h]
    exact wf_redrawRam _ _ hw
  · exact (interrupt_does h).keeps_wf hw
  · exact (interrupt_does h).keeps_wf hw
  · exact hw
  · exact hw
  · exact (exec_does h).keeps_wf hw

/-- The accumulator forms, by their list. -/
theorem onAcc_of_mem {i : Instr} (h : i ∈ [Instr.aslAcc, .lsrAcc, .rolAcc, .rorAcc, .incAcc, .decAcc]) :
    onAcc i = true ∧ i.mnemonic ∈ accumulatorMnemonics := by
  simp only [List.mem_cons, List.not_mem_nil, or_false] at h
  rcases h with rfl | rfl | rfl | rfl | rfl | rfl <;> exact ⟨rfl, by decide⟩

/-- The writers of memory, of which the accumulator forms are none. -/
theorem memory_writtenBy {m : Mnemonic} {inAcc : Bool} (h : Part.memory.writtenBy m inAcc = true) :
    m ∈ [.sta, .stx, .sty, .stz, .asl, .lsr, .rol, .ror, .inc, .dec, .tsb, .trb, .mvn, .mvp, .pha, .phx, .phy,
      .phb, .phd, .phk, .php, .pea, .pei, .per, .jsr, .jsl, .brk, .cop] ∧ (m ∈ accumulatorMnemonics → inAcc = false) := by
  revert h
  cases inAcc <;> cases m <;> decide

/-- Settles O22, by the table: the memory part holds the bytes and the record of device writes. -/
theorem onlyStoringInstructionsWriteMemory : Obligations.OnlyStoringInstructionsWriteMemory := by
  intro i s t h changed
  have differs : ¬ Part.memory.Same s t := by
    intro same
    obtain ⟨hm, hl⟩ := Prod.mk.inj same
    rcases changed with ⟨a, ha⟩ | hd
    · exact ha (congrArg (fun m => Memory.get m a.toNat) hm)
    · exact hd hl
  obtain ⟨hmem, hacc⟩ := memory_writtenBy (writtenBy_of_changed h .memory differs)
  refine ⟨hmem, fun hi => ?_⟩
  obtain ⟨isAcc, inTable⟩ := onAcc_of_mem hi
  exact Bool.false_ne_true ((hacc inTable).symm.trans isAcc)

/-- A datum stored in RAM at two different addresses is what a read for any purpose gives. -/
theorem valueAt_of_storedAt {s : State} {m : Memory} {ea : EA} {w : Width} {v : BitVec w.bits} (l : Access)
    (hw : s.CanWrite ea w.bytes) (hd : ea 0 ≠ ea 1) (h : StoredAt s.mem m ea w v) :
    State.valueAt { s with mem := m } l ea w = v := by
  have seen : ∀ k, k < w.bytes → State.seen { s with mem := m } l (ea k) = m.get (ea k).toNat := fun k hk =>
    State.Writable.seen (s := { s with mem := m }) (hw k hk) l
  cases w with
  | w8 =>
    rw [State.valueAt, seen 0 (by decide), h, if_pos rfl]
    exact BitVec.setWidth_eq v
  | w16 =>
    rw [State.valueAt, seen 0 (by decide), seen 1 (by decide), h, h, if_pos rfl, if_neg (Ne.symm hd), if_pos ⟨rfl, rfl⟩]
    exact word_hi_lo v

/-- Settles O25: the store leaves its bytes in RAM, where every read sees them. -/
theorem storeThenLoad : Obligations.StoreThenLoad := by
  intro s t k l ea w v hd hw h
  obtain ⟨m, e, stored, -⟩ := storeW_of_canWrite (k := k) hw hd v
  obtain rfl := Except.ok.inj (h.symm.trans e)
  have ram : ∀ j, j < w.bytes → State.RamOrRom { s with mem := m } (ea j) := fun j hj => .inl (hw j hj)
  refine ⟨?_, ?_, fun h16 => ?_, fun a ha => ?_⟩
  · rw [readW_of_canRead fun j hj => (ram j hj).readable, valueAt_of_storedAt l hw hd stored]
  · rw [read8_of_ramOrRom (ram 0 (by cases w <;> decide))]
    exact congrArg _ ((stored (ea 0)).trans (if_pos rfl))
  · rw [read8_of_ramOrRom (ram 1 (by rw [h16]; decide))]
    exact congrArg _ ((stored (ea 1)).trans (by rw [if_neg (Ne.symm hd), if_pos ⟨h16, rfl⟩]))
  · refine (stored a).trans ?_
    rw [if_neg (ha 0 (by cases w <;> decide)), if_neg]
    rintro ⟨h16, e⟩
    exact ha 1 (by rw [h16]; decide) e

end Sys2Proof.Machine
end

section
/-!
SUPPORT. The instructions that store, and those that read an operand, change it and write it back, in RAM or on a device
(R66, R70, R173 to R176, R210 to R225, R311, R312).
-/
namespace Sys2Proof.Machine

/-! ### Stores -/

/-- A mnemonic that stores `v` stores it by every form, in RAM or to a device. -/
theorem stores_of_means {form : MemMode → Option (Byte × Instr)} {meaning : MemMode → State → Acc State}
    (hm : Means form MemMode.encoded meaning) {s : State} {w : Width} {v : BitVec w.bits}
    (hv : ∀ o, meaning o s = store w v o s) : Stores form s w v := by
  intro o op i ea hform he
  obtain ⟨henc, hexec⟩ := hm s o op i hform
  have run : exec i s = finish (storeW (s.advance (1 + o.encoded.length)) o.access ea w v) := by
    rw [hexec, hv, o.length_encoded]
    show finish (o.ea s >>= _) = _
    rw [he]
    rfl
  refine ⟨henc, fun hw => ?_, fun hd => ?_⟩
  · obtain ⟨m, e, stored, -⟩ := storeW_of_canWrite (s := s.advance _) (k := o.access) hw (MemMode.ea_ne he) v
    exact ⟨m, stored, by rw [run, e]; rfl⟩
  · rw [run, storeW_of_onDevice (s := s.advance _) hd]
    rfl

/-- Settles O32: each of the four is a store of its register, or of zero. -/
theorem storesWriteTheirRegister : Obligations.StoresWriteTheirRegister := fun _ =>
  ⟨stores_of_means staForm_means fun _ => rfl, stores_of_means stzForm_means fun _ => rfl,
    stores_of_means stxForm_means fun _ => rfl, stores_of_means styForm_means fun _ => rfl⟩

/-! ### Read-modify-write -/

/-- A read-modify-write of a memory operand at the accumulator width: it is read, `res` of it is written back, and the status
byte is written by `before` and `after` (R214). -/
def readModifyWrite (s : State) (res : BitVec s.wA.bits → BitVec s.wA.bits) (before after : BitVec s.wA.bits → Byte → Byte)
    (o : MemMode) : Acc State := do
  let ea ← o.ea s
  let v ← readW s .exposed ea s.wA
  let t ← writeBackW { s.advance (1 + o.bytes) with p := before v s.p } ea s.wA (res v)
  pure { t with p := after v t.p }

theorem shift_eq_readModifyWrite (f : (w : Nat) → BitVec w → Bool → Shifted w) (s : State) (o : MemMode) :
    shift f (.mem o) s = readModifyWrite s (fun v => (f s.wA.bits v s.flagC).res)
      (fun v p => setBit p 0 (f s.wA.bits v s.flagC).carry)
      (fun v p => setBit (setBit p 7 (f s.wA.bits v s.flagC).res.msb) 1 ((f s.wA.bits v s.flagC).res == 0)) o := rfl

theorem modify_eq_readModifyWrite (f : (w : Nat) → BitVec w → BitVec w) (s : State) (o : MemMode) :
    modify f (.mem o) s = readModifyWrite s (f s.wA.bits) (fun _ p => p)
      (fun v p => setBit (setBit p 7 (f s.wA.bits v).msb) 1 (f s.wA.bits v == 0)) o := rfl

theorem testAndChange_eq_readModifyWrite (f : (w : Nat) → BitVec w → BitVec w → BitVec w) (s : State) (o : MemMode) :
    testAndChange f o s = readModifyWrite s (fun v => f s.wA.bits v (s.accAt s.wA))
      (fun v p => setBit p 1 (s.accAt s.wA &&& v == 0)) (fun _ p => p) o := by
  have keep (x : Acc State) : (x >>= fun t => pure { t with p := t.p }) = x := bind_pure x
  simp only [readModifyWrite, keep]
  rfl

/-- A mnemonic that is a read-modify-write changes its operand by every form, in RAM or on a device that takes it. -/
theorem changesMemory_of_means {form : MemMode → Option (Byte × Instr)} {meaning : MemMode → State → Acc State}
    (hm : Means form MemMode.encoded meaning) {s : State} {res : BitVec s.wA.bits → BitVec s.wA.bits}
    {before after : BitVec s.wA.bits → Byte → Byte} {flags : BitVec s.wA.bits → List (Nat × Bool)}
    (hrun : ∀ o, meaning o s = readModifyWrite s res before after o)
    (hp : ∀ v, StatusIs s.p (after v (before v s.p)) (flags v)) : ChangesMemory form s res flags := by
  intro o op i ea hform he v
  obtain ⟨henc, hexec⟩ := hm s o op i hform
  -- once the operand is read, the write-back is all that is left
  have run (hr : s.CanRead .exposed ea s.wA.bytes) : exec i s = finish
      (writeBackW { s.advance (1 + o.encoded.length) with p := before v s.p } ea s.wA (res v) >>= fun t =>
        pure { t with p := after v t.p }) := by
    rw [hexec, hrun, o.length_encoded, readModifyWrite, he]
    show finish (readW s .exposed ea s.wA >>= _) = _
    rw [readW_of_canRead hr]
    rfl
  refine ⟨henc, fun hw => ?_, fun hd => ?_⟩
  · obtain ⟨m, e, stored, -⟩ := writeBackW_of_canWrite
      (s := { s.advance (1 + o.encoded.length) with p := before v s.p }) hw (MemMode.ea_ne he) (res v)
    refine ⟨m, _, stored, hp v, ?_⟩
    rw [run fun j hj => (hw j hj).readable, e]
    rfl
  · refine ⟨_, hp v, ?_⟩
    rw [run fun j hj => (hd j hj).readable,
      writeBackW_of_onDevice (s := { s.advance (1 + o.encoded.length) with p := before v s.p }) hd]
    rfl

/-- Settles O54: TSB and TRB write Z before the operand is written back. -/
theorem testAndSetOrResetBits : Obligations.TestAndSetOrResetBits := by
  intro s a
  have tested : ∀ v : BitVec s.wA.bits, StatusIs s.p (setBit s.p 1 (a &&& v == 0)) [(1, decide (a &&& v = 0))] := fun v =>
    (StatusIs.refl s.p).setBit 1 (by decide) _
  exact ⟨changesMemory_of_means tsbForm_means (testAndChange_eq_readModifyWrite _ s) tested,
    changesMemory_of_means trbForm_means (testAndChange_eq_readModifyWrite _ s) tested⟩

theorem Means.mem {form : Target → Option (Byte × Instr)} {meaning : Target → State → Acc State}
    (h : Means form Target.encoded meaning) :
    Means (fun o => form (.mem o)) MemMode.encoded (fun o => meaning (.mem o)) := fun s o => h s (.mem o)

/-- Whether C is written does not matter to a write of the accumulator. -/
theorem State.writeA_setC (s : State) (b : Bool) {w : Nat} (v : BitVec w) : (s.setC b).writeA v = (s.writeA v).setC b := by
  unfold State.writeA
  rw [State.setC_flagM]
  rfl

/-- A shift changes its operand, with C the bit shifted out and N and Z of the result. -/
theorem shift_changes {form : Target → Option (Byte × Instr)} {f : (w : Nat) → BitVec w → Bool → Shifted w}
    (hm : Means form Target.encoded (shift f)) (s : State) :
    Changes form s (fun v => (f s.wA.bits v s.flagC).res)
      (fun v => (0, (f s.wA.bits v s.flagC).carry) :: nz (f s.wA.bits v s.flagC).res) := by
  have status (v : BitVec s.wA.bits) := ((StatusIs.refl s.p).setBit 0 (by decide) (f s.wA.bits v s.flagC).carry).setNZ
    (s := s.setC (f s.wA.bits v s.flagC).carry) (f s.wA.bits v s.flagC).res
  refine ⟨fun op i hform => ?_, changesMemory_of_means hm.mem (shift_eq_readModifyWrite f s) status⟩
  obtain ⟨henc, hexec⟩ := hm s .acc op i hform
  refine ⟨henc, _, _, accIs_writeA s _, status _, ?_⟩
  rw [hexec]
  show Host.Outcome.next (State.setNZ (State.writeA (State.setC (s.advance 1) _) _) _) = _
  rw [State.writeA_setC]
  rfl

/-- INC and DEC change their operand, with N and Z of the result. -/
theorem modify_changes {form : Target → Option (Byte × Instr)} {f : (w : Nat) → BitVec w → BitVec w}
    (hm : Means form Target.encoded (modify f)) (s : State) :
    Changes form s (f s.wA.bits) (fun v => nz (f s.wA.bits v)) := by
  have status (v : BitVec s.wA.bits) := statusIs_setNZ s (f s.wA.bits v)
  refine ⟨fun op i hform => ?_, changesMemory_of_means hm.mem (modify_eq_readModifyWrite f s) status⟩
  obtain ⟨henc, hexec⟩ := hm s .acc op i hform
  exact ⟨henc, _, _, accIs_writeA s _, status _, hexec⟩

/-! ### The shifts as arithmetic -/

theorem shiftAsl_res {w : Nat} (v : BitVec w) (cin : Bool) : (shiftAsl v cin).res = BitVec.ofNat w (2 * v.toNat) := by
  apply BitVec.eq_of_toNat_eq
  simp only [shiftAsl, BitVec.toNat_shiftLeft, BitVec.toNat_ofNat, Nat.shiftLeft_eq]
  rw [Nat.pow_one, Nat.mul_comm]

theorem shiftLsr_res {w : Nat} (v : BitVec w) (cin : Bool) : (shiftLsr v cin).res = BitVec.ofNat w (v.toNat / 2) := by
  apply BitVec.eq_of_toNat_eq
  have := v.isLt
  simp only [shiftLsr, BitVec.toNat_ushiftRight, BitVec.toNat_ofNat, Nat.shiftRight_eq_div_pow]
  rw [Nat.pow_one, Nat.mod_eq_of_lt (by omega)]

theorem shiftAsl_carry {w : Nat} (v : BitVec w) (cin : Bool) : (shiftAsl v cin).carry = v.getLsbD (w - 1) :=
  BitVec.msb_eq_getLsbD_last v

theorem shiftLsr_carry {w : Nat} (v : BitVec w) (cin : Bool) : (shiftLsr v cin).carry = v.getLsbD 0 := rfl

/-- The bit that a rotate puts in was left free by the shift, so that it is added. -/
theorem shiftRol_res {w : Nat} (v : BitVec w) (cin : Bool) :
    (shiftRol v cin).res = BitVec.ofNat w (2 * v.toNat + cin.toNat) := by
  have free : (v <<< 1) &&& BitVec.ofNat w cin.toNat = 0#w := by
    ext i hi
    cases cin <;> cases i <;> simp
  show (v <<< 1) ||| BitVec.ofNat w cin.toNat = _
  rw [← BitVec.add_eq_or_of_and_eq_zero _ _ free, BitVec.ofNat_add, ← shiftAsl_res v cin]
  rfl

theorem shiftRor_res {w : Nat} (v : BitVec w) (cin : Bool) :
    (shiftRor v cin).res = BitVec.ofNat w (v.toNat / 2 + cin.toNat * 2 ^ (w - 1)) := by
  have free : (v >>> 1) &&& (BitVec.ofNat w cin.toNat <<< (w - 1)) = 0#w := by
    ext i hi
    by_cases low : i < w - 1
    · simp [low]
    · have out : v.getLsbD (1 + i) = false := BitVec.getLsbD_of_ge v (1 + i) (by omega)
      simp [out]
  show (v >>> 1) ||| (BitVec.ofNat w cin.toNat <<< (w - 1)) = _
  rw [← BitVec.add_eq_or_of_and_eq_zero _ _ free, BitVec.ofNat_add, ← shiftLsr_res v cin]
  congr 1
  apply BitVec.eq_of_toNat_eq
  simp only [BitVec.toNat_shiftLeft, BitVec.toNat_ofNat, Nat.shiftLeft_eq, Nat.mod_mul_mod]

theorem shiftRol_carry {w : Nat} (v : BitVec w) (cin : Bool) : (shiftRol v cin).carry = v.getLsbD (w - 1) :=
  BitVec.msb_eq_getLsbD_last v

theorem shiftRor_carry {w : Nat} (v : BitVec w) (cin : Bool) : (shiftRor v cin).carry = v.getLsbD 0 := rfl

/-- Settles O37: each shift as the arithmetic it is. -/
theorem shiftsAndRotates : Obligations.ShiftsAndRotates := by
  intro s
  have means := targetForm_means
  refine ⟨?_, ?_, ?_, ?_⟩
  · simpa only [shiftAsl_res, shiftAsl_carry] using shift_changes (means (aslForm, asl) (by simp)) s
  · simpa only [shiftLsr_res, shiftLsr_carry] using shift_changes (means (lsrForm, lsr) (by simp)) s
  · simpa only [shiftRol_res, shiftRol_carry] using shift_changes (means (rolForm, rol) (by simp)) s
  · simpa only [shiftRor_res, shiftRor_carry] using shift_changes (means (rorForm, ror) (by simp)) s

/-- Settles O38: INC and DEC as read-modify-writes, the index forms as writes of X and Y. -/
theorem incrementsAndDecrements : Obligations.IncrementsAndDecrements := by
  intro s
  have means := targetForm_means
  refine ⟨modify_changes (f := fun _ v => v + 1) (means (incForm, inc) (by simp)) s,
    modify_changes (f := fun _ v => v - 1) (means (decForm, dec) (by simp)) s, ?_⟩
  exact
    ⟨⟨encodes_implied rfl s, _, _, indexIs_writeX s _, statusIs_setNZ s _, rfl⟩,
      ⟨encodes_implied rfl s, _, _, indexIs_writeX s _, statusIs_setNZ s _, rfl⟩,
      ⟨encodes_implied rfl s, _, _, indexIs_writeY s _, statusIs_setNZ s _, rfl⟩,
      ⟨encodes_implied rfl s, _, _, indexIs_writeY s _, statusIs_setNZ s _, rfl⟩⟩

end Sys2Proof.Machine
end

section
/-!
SUPPORT. The instructions that push, call, pull and return, on the stack primitives of R68 (R256 to R258, R270 to R285, R320,
R321, R348 to R350).
-/
namespace Sys2Proof.Machine

/-! ### Pushes -/

theorem length_highFirst (w : Width) (v : BitVec w.bits) : (highFirst w v).length = w.bytes := by cases w <;> rfl

theorem length_highFirst_le (w : Width) (v : BitVec w.bits) : (highFirst w v).length ≤ 256 := by
  rw [length_highFirst]
  cases w <;> decide

/-- An instruction that advances PC and pushes a list of bytes. -/
theorem pushesBytes_of_pushAll {s : State} {bs pushed : List Byte} {i : Instr} (henc : Encodes s bs i)
    (hexec : exec i s = finish (pushAll (s.advance bs.length) pushed)) (hl : pushed.length ≤ 256) :
    PushesBytes s bs i pushed := by
  intro hw
  obtain ⟨m, e, hp, -⟩ := pushAll_of_canWrite pushed (s.advance bs.length) hl hw
  exact ⟨henc, m, hp.congr rfl rfl rfl, by rw [hexec, e]; rfl⟩

theorem pushesBytes_of_push8 {s : State} {bs : List Byte} {i : Instr} {v : Byte} (henc : Encodes s bs i)
    (hexec : exec i s = finish (push8 (s.advance bs.length) v)) : PushesBytes s bs i [v] :=
  pushesBytes_of_pushAll henc (hexec.trans (congrArg finish (push8_eq_pushAll _ v))) (by simp)

theorem pushesBytes_of_push16 {s : State} {bs : List Byte} {i : Instr} {v : Word} (henc : Encodes s bs i)
    (hexec : exec i s = finish (push16 (s.advance bs.length) v)) : PushesBytes s bs i [hi v, lo v] :=
  pushesBytes_of_pushAll henc (hexec.trans (congrArg finish (push16_eq_pushAll _ v))) (by simp)

theorem pushesBytes_of_pushW {s : State} {bs : List Byte} {i : Instr} {w : Width} {v : BitVec w.bits}
    (henc : Encodes s bs i) (hexec : exec i s = finish (pushW (s.advance bs.length) w v)) :
    PushesBytes s bs i (highFirst w v) :=
  pushesBytes_of_pushAll henc (hexec.trans (congrArg finish (pushW_eq_pushAll _ w v))) (length_highFirst_le w v)

/-- Settles O45: each pushes its register after PC has moved on. -/
theorem registerPushes : Obligations.RegisterPushes := fun s =>
  ⟨pushesBytes_of_pushW (encodes_implied rfl s) rfl, pushesBytes_of_pushW (encodes_implied rfl s) rfl,
    pushesBytes_of_pushW (encodes_implied rfl s) rfl, pushesBytes_of_push8 (encodes_implied rfl s) rfl,
    pushesBytes_of_push16 (encodes_implied rfl s) rfl, pushesBytes_of_push8 (encodes_implied rfl s) rfl,
    pushesBytes_of_push8 (encodes_implied rfl s) rfl⟩

theorem exec_pei_of_canRead {s : State} {o : Byte} (h : s.CanRead .operand (dpn s o.toNat) 2) :
    exec (.pei o) s = finish (push16 (s.advance 2) (s.valueAt .operand (dpn s o.toNat) .w16)) := by
  show finish (read16 s .operand (dpn s o.toNat) >>= _) = _
  rw [read16_of_canRead h]
  rfl

/-- Settles O46: PEI reads its word in bank 0 without a page wrap, PER counts from the next instruction. -/
theorem effectiveAddressPushes : Obligations.EffectiveAddressPushes := fun s v o =>
  ⟨pushesBytes_of_push16 (encodes_two rfl s v) rfl,
    fun hr => pushesBytes_of_push16 (encodes_one rfl s o) (exec_pei_of_canRead hr),
    pushesBytes_of_push16 (encodes_two rfl s v) rfl⟩

/-! ### Calls -/

theorem callAbs_of_canWrite {s : State} (hw : s.CanWrite s.slot 2) (a : Word) :
    ∃ m, PushedAt s m [hi (s.pcn 2), lo (s.pcn 2)] ∧ callAbs a s = .ok { s with pc := a, mem := m, s := s.spDown 2 } := by
  obtain ⟨m, hp, e⟩ := push16_of_canWrite hw (s.pcn 2)
  refine ⟨m, hp, ?_⟩
  show (push16 s (s.pcn 2) >>= _) = _
  rw [e]
  rfl

/-- The pointer is read in the memory that the push leaves (R257). -/
theorem callIndX_of_canWrite {s : State} (hw : s.CanWrite s.slot 2) {a : Word}
    (hr : s.CanRead .pointer (bankAddr s.pbr (a + s.x)) 2) :
    ∃ m, PushedAt s m [hi (s.pcn 2), lo (s.pcn 2)] ∧ callIndX a s = .ok { s with
      pc := State.valueAt { s with mem := m } .pointer (bankAddr s.pbr (a + s.x)) .w16, mem := m, s := s.spDown 2 } := by
  obtain ⟨m, hp, e⟩ := push16_of_canWrite hw (s.pcn 2)
  refine ⟨m, hp, ?_⟩
  show (push16 s (s.pcn 2) >>= _) = _
  rw [e]
  show (read16 { s with mem := m, s := s.spDown 2 } .pointer (bankAddr s.pbr (a + s.x)) >>= _) = _
  rw [read16_of_canRead (s := { s with mem := m, s := s.spDown 2 }) hr]
  rfl

/-- The pushes of JSL, as one list of bytes (R258). -/
theorem callLong_pushes (a : Addr) (s : State) :
    callLong a s = (pushAll s [s.pbr, hi (s.pcn 3), lo (s.pcn 3)] >>= fun t =>
      pure { t with pc := offsetOf a, pbr := bankOf a }) := by
  unfold callLong pushAll
  cases h : push8 s s.pbr with
  | error e => rfl
  | ok t =>
    obtain ⟨m, l, rfl, -⟩ := push8_keeps h
    simp only [bind, Except.bind, push16_eq_pushAll]
    rfl

theorem callLong_of_canWrite {s : State} (hw : s.CanWrite s.slot 3) (a : Addr) :
    ∃ m, PushedAt s m [s.pbr, hi (s.pcn 3), lo (s.pcn 3)] ∧
      callLong a s = .ok { s with pc := offsetOf a, pbr := bankOf a, mem := m, s := s.spDown 3 } := by
  obtain ⟨m, e, hp, -⟩ := pushAll_of_canWrite [s.pbr, hi (s.pcn 3), lo (s.pcn 3)] s (by simp) hw
  refine ⟨m, hp, ?_⟩
  rw [callLong_pushes, e]
  rfl

/-- Settles O42: what each call leaves, on a stack in RAM. -/
theorem callsPushAndJump : Obligations.CallsPushAndJump := by
  intro s a l
  refine ⟨fun hw => ⟨encodes_two rfl s a, ?_⟩, fun hw hr => ⟨encodes_two rfl s a, ?_⟩,
    fun hw => ⟨encodes_three rfl s l, ?_⟩⟩
  · obtain ⟨m, hp, e⟩ := callAbs_of_canWrite hw a
    exact ⟨m, hp, finish_next.2 e⟩
  · obtain ⟨m, hp, e⟩ := callIndX_of_canWrite hw hr
    exact ⟨m, hp, finish_next.2 e⟩
  · obtain ⟨m, hp, e⟩ := callLong_of_canWrite hw l
    exact ⟨m, hp, finish_next.2 e⟩

/-! ### Pulls in a row -/

@[simp] theorem State.spUp_zero (s : State) : s.spUp 0 = s.s := by
  unfold State.spUp
  split <;> simp

/-- The state `u` has S where `s` has it after `j` pulls, and reads see in it what they see in `s`. -/
def AfterPulls (s : State) (j : Nat) (u : State) : Prop :=
  u.e = s.e ∧ u.s = s.spUp j ∧ u.mem = s.mem ∧ u.memMap = s.memMap ∧ u.deviceWrites = s.deviceWrites ∧ u.draw = s.draw

theorem afterPulls_advance (s : State) (n : Nat) : AfterPulls s 0 (s.advance n) :=
  ⟨rfl, s.spUp_zero.symm, rfl, rfl, rfl, rfl⟩

/-- The next pull reads the next slot. -/
theorem AfterPulls.pull8 {s u : State} {j : Nat} (h : AfterPulls s j u) (hr : s.Readable .stack (s.pullSlot j)) :
    Machine.pull8 u = .ok (s.seen .stack (s.pullSlot j), { u with s := s.spUp (j + 1) }) ∧
      AfterPulls s (j + 1) { u with s := s.spUp (j + 1) } := by
  obtain ⟨he, hs, hm, hk, hl, hd⟩ := h
  have slot : u.pullSlot 0 = s.pullSlot j := congrArg (addr 0) (s.spUp_add u j 1 he hs)
  have readable : u.CanRead .stack u.pullSlot 1 := fun k hk1 => by
    obtain rfl : k = 0 := by omega
    rw [slot, State.Readable, hk]
    exact hr
  refine ⟨?_, he, rfl, hm, hk, hl, hd⟩
  rw [pull8_of_canRead readable, slot, seen_congr hm hk hl hd, s.spUp_add u j 1 he hs]

/-- The next two pulls give a word, its low byte first. -/
theorem AfterPulls.pull16 {s u : State} {j : Nat} (h : AfterPulls s j u) (hr : s.Readable .stack (s.pullSlot j))
    (hr' : s.Readable .stack (s.pullSlot (j + 1))) :
    Machine.pull16 u = .ok (word (s.seen .stack (s.pullSlot (j + 1))) (s.seen .stack (s.pullSlot j)),
        { u with s := s.spUp (j + 2) }) ∧
      AfterPulls s (j + 2) { u with s := s.spUp (j + 2) } := by
  obtain ⟨e, h⟩ := h.pull8 hr
  obtain ⟨e', h⟩ := h.pull8 hr'
  refine ⟨?_, h⟩
  simp only [Machine.pull16, e, e', bind, Except.bind, pure, Except.pure]

/-! ### Returns -/

theorem rts_of_canRead {s : State} (h : s.CanRead .stack s.pullSlot 2) :
    rts s = .ok { s with pc := s.valueAt .stack s.pullSlot .w16 + 1, s := s.spUp 2 } := by
  show (pull16 (s.advance 1) >>= _) = _
  rw [pull16_of_canRead (s := s.advance 1) h]
  rfl

theorem rtl_of_canRead {s : State} (h : s.CanRead .stack s.pullSlot 3) :
    rtl s = .ok { s with
      pc := s.valueAt .stack s.pullSlot .w16 + 1, pbr := s.seen .stack (s.pullSlot 2), s := s.spUp 3 } := by
  obtain ⟨e, after⟩ := (afterPulls_advance s 1).pull16 (h 0 (by decide)) (h 1 (by decide))
  obtain ⟨e', -⟩ := after.pull8 (h 2 (by decide))
  simp only [rtl, e, e', bind, Except.bind]
  rfl

/-- Settles O43: one more than the pulled address, and for RTL the bank pulled after it. -/
theorem returnsPullTheirTarget : Obligations.ReturnsPullTheirTarget := fun s =>
  ⟨fun h => ⟨encodes_implied rfl s, finish_next.2 (rts_of_canRead h)⟩,
    fun h => ⟨encodes_implied rfl s, finish_next.2 (rtl_of_canRead h)⟩⟩

/-- RTS with the pushed word on top of the stack. -/
theorem rts_of_pushed {s t : State} {v : Word} (hw : s.CanWrite s.slot 2) (hp : PushedAt s t.mem [hi v, lo v])
    (hs : t.s = s.spDown 2) (he : t.e = s.e) (hmap : t.memMap = s.memMap) :
    rts t = .ok { t with pc := v + 1, s := s.s } := by
  have found := fun j => seen_pullSlot hw hp (by simp) hs he hmap (j := j)
  rw [rts_of_canRead fun j hj => (found j hj).1.readable, spUp_of_pushed hs he, State.valueAt, (found 0 (by simp)).2,
    (found 1 (by simp)).2]
  simp

/-- RTL with the pushed bank and word on top of the stack. -/
theorem rtl_of_pushed {s t : State} {b : Byte} {v : Word} (hw : s.CanWrite s.slot 3)
    (hp : PushedAt s t.mem [b, hi v, lo v]) (hs : t.s = s.spDown 3) (he : t.e = s.e) (hmap : t.memMap = s.memMap) :
    rtl t = .ok { t with pc := v + 1, pbr := b, s := s.s } := by
  have found := fun j => seen_pullSlot hw hp (by simp) hs he hmap (j := j)
  rw [rtl_of_canRead fun j hj => (found j hj).1.readable, spUp_of_pushed hs he, State.valueAt, (found 0 (by simp)).2,
    (found 1 (by simp)).2, (found 2 (by simp)).2]
  simp

theorem State.pcn_succ (s : State) (n : Nat) : s.pcn n + 1 = s.pcn (n + 1) := by
  rw [State.pcn, State.pcn, BitVec.ofNat_add, BitVec.add_assoc]
  rfl

/-- Settles O44: the calls leave the address of their last byte on the stack, which the returns take up. -/
theorem returnsUndoCalls : Obligations.ReturnsUndoCalls := by
  intro s t a l
  refine ⟨fun hw hcall => ?_, fun hw hcall => ?_⟩
  · -- both calls push the same word
    have shape : ∃ m target, PushedAt s m [hi (s.pcn 2), lo (s.pcn 2)] ∧
        t = { s with pc := target, mem := m, s := s.spDown 2 } := by
      obtain ⟨m, hp, e⟩ := push16_of_canWrite hw (s.pcn 2)
      rcases hcall with h | h
      all_goals
        obtain ⟨u, hu, h⟩ := bind_ok (finish_next.1 h)
        obtain rfl := Except.ok.inj (hu.symm.trans e)
      · exact ⟨m, a, hp, ok_inj h⟩
      · obtain ⟨target, -, h⟩ := bind_ok h
        exact ⟨m, target, hp, ok_inj h⟩
    obtain ⟨m, target, hp, rfl⟩ := shape
    have back := rts_of_pushed (t := { s with pc := target, mem := m, s := s.spDown 2 }) hw hp rfl rfl rfl
    rw [s.pcn_succ 2] at back
    exact finish_next.2 back
  · obtain ⟨m, hp, e⟩ := callLong_of_canWrite hw l
    obtain rfl := Except.ok.inj ((finish_next.1 hcall).symm.trans e)
    have back := rtl_of_pushed (t := { s with pc := offsetOf l, pbr := bankOf l, mem := m, s := s.spDown 3 }) hw hp rfl rfl rfl
    rw [s.pcn_succ 3] at back
    exact finish_next.2 back

/-! ### Pulls -/

theorem pla_of_canRead {s : State} (h : s.CanRead .stack s.pullSlot s.wA.bytes) :
    pla s = .ok ((State.writeA { s.advance 1 with s := s.spUp s.wA.bytes } (s.valueAt .stack s.pullSlot s.wA)).setNZ
      (s.valueAt .stack s.pullSlot s.wA)) := by
  show (pullW (s.advance 1) s.wA >>= _) = _
  rw [pullW_of_canRead (s := s.advance 1) h]
  rfl

theorem plx_of_canRead {s : State} (h : s.CanRead .stack s.pullSlot s.wI.bytes) :
    plx s = .ok ((State.writeX { s.advance 1 with s := s.spUp s.wI.bytes } (s.valueAt .stack s.pullSlot s.wI)).setNZ
      (s.valueAt .stack s.pullSlot s.wI)) := by
  show (pullW (s.advance 1) s.wI >>= _) = _
  rw [pullW_of_canRead (s := s.advance 1) h]
  rfl

theorem ply_of_canRead {s : State} (h : s.CanRead .stack s.pullSlot s.wI.bytes) :
    ply s = .ok ((State.writeY { s.advance 1 with s := s.spUp s.wI.bytes } (s.valueAt .stack s.pullSlot s.wI)).setNZ
      (s.valueAt .stack s.pullSlot s.wI)) := by
  show (pullW (s.advance 1) s.wI >>= _) = _
  rw [pullW_of_canRead (s := s.advance 1) h]
  rfl

theorem plb_of_canRead {s : State} (h : s.CanRead .stack s.pullSlot 1) :
    plb s = .ok (State.setNZ { s.advance 1 with s := s.spUp 1, dbr := s.seen .stack (s.pullSlot 0) }
      (s.seen .stack (s.pullSlot 0))) := by
  show (pull8 (s.advance 1) >>= _) = _
  rw [pull8_of_canRead (s := s.advance 1) h]
  rfl

theorem pld_of_canRead {s : State} (h : s.CanRead .stack s.pullSlot 2) :
    pld s = .ok (State.setNZ { s.advance 1 with s := s.spUp 2, d := s.valueAt .stack s.pullSlot .w16 }
      (s.valueAt .stack s.pullSlot .w16)) := by
  show (pull16 (s.advance 1) >>= _) = _
  rw [pull16_of_canRead (s := s.advance 1) h]
  rfl

/-- Settles O47: each pull is a write of its register at the register's width. -/
theorem registerPulls : Obligations.RegisterPulls := fun s =>
  ⟨fun h => ⟨encodes_implied rfl s, _, _, accIs_writeA s _, statusIs_setNZ s _, finish_next.2 (pla_of_canRead h)⟩,
    fun h => ⟨encodes_implied rfl s, _, _, indexIs_writeX s _, statusIs_setNZ s _, finish_next.2 (plx_of_canRead h)⟩,
    fun h => ⟨encodes_implied rfl s, _, _, indexIs_writeY s _, statusIs_setNZ s _, finish_next.2 (ply_of_canRead h)⟩,
    fun h => ⟨encodes_implied rfl s, _, statusIs_setNZ s _, finish_next.2 (plb_of_canRead h)⟩,
    fun h => ⟨encodes_implied rfl s, _, statusIs_setNZ s _, finish_next.2 (pld_of_canRead h)⟩⟩

/-! ### The whole status byte -/

theorem plp_of_canRead {s : State} (h : s.CanRead .stack s.pullSlot 1) :
    plp s = .ok (State.setP { s.advance 1 with s := s.spUp 1 } (s.seen .stack (s.pullSlot 0))) := by
  show (pull8 (s.advance 1) >>= _) = _
  rw [pull8_of_canRead (s := s.advance 1) h]
  rfl

/-- Settles O48: the three write through `SetP`. -/
theorem statusByteInstructions : Obligations.StatusByteInstructions := by
  intro s imm
  refine ⟨fun h => ⟨encodes_implied rfl s, ?_⟩, ⟨encodes_one rfl s imm, ?_⟩, ⟨encodes_one rfl s imm, ?_⟩⟩
  · obtain ⟨hp, e⟩ := statusWritten_setP { s.advance 1 with s := s.spUp 1 } (s.seen .stack (s.pullSlot 0))
    exact ⟨_, _, _, hp, finish_next.2 ((plp_of_canRead h).trans (congrArg Except.ok e))⟩
  · obtain ⟨hp, e⟩ := statusWritten_setP (s.advance 2) (s.p &&& ~~~imm)
    exact ⟨_, _, _, hp, congrArg Host.Outcome.next e⟩
  · obtain ⟨hp, e⟩ := statusWritten_setP (s.advance 2) (s.p ||| imm)
    exact ⟨_, _, _, hp, congrArg Host.Outcome.next e⟩

/-! ### Return from interrupt -/

/-- All that RTI does, when its frame can be read (R283, R413). -/
theorem rti_of_canRead {s : State} (h : s.CanRead .stack s.pullSlot (if s.e then 3 else 4)) :
    ∃ p x y, StatusWritten s (s.seen .stack (s.pullSlot 0)) p x y ∧
      rti s = .ok { s with
        p := p
        x := x
        y := y
        pc := word (s.seen .stack (s.pullSlot 2)) (s.seen .stack (s.pullSlot 1))
        pbr := if s.e then s.pbr else s.seen .stack (s.pullSlot 3)
        s := s.spUp (if s.e then 3 else 4) } := by
  have readable (j : Nat) (hj : j < 3) : s.Readable .stack (s.pullSlot j) := h j (by split <;> omega)
  obtain ⟨e0, -⟩ := (afterPulls_advance s 1).pull8 (readable 0 (by decide))
  obtain ⟨p, x, y, hp, hu⟩ : ∃ p x y, StatusWritten s (s.seen .stack (s.pullSlot 0)) p x y ∧
      State.setP { s.advance 1 with s := s.spUp 1 } (s.seen .stack (s.pullSlot 0)) =
        { s.advance 1 with s := s.spUp 1, p := p, x := x, y := y } := 
      ⟨_, _, _, statusWritten_setP { s.advance 1 with s := s.spUp 1 } _⟩
  have after1 : AfterPulls s 1 { s.advance 1 with s := s.spUp 1, p := p, x := x, y := y } := ⟨rfl, rfl, rfl, rfl, rfl, rfl⟩
  obtain ⟨e1, after3⟩ := after1.pull16 (readable 1 (by decide)) (readable 2 (by decide))
  refine ⟨p, x, y, hp, ?_⟩
  show (pull8 (s.advance 1) >>= _) = _
  rw [e0]
  show (pull16 (State.setP { s.advance 1 with s := s.spUp 1 } (s.seen .stack (s.pullSlot 0))) >>= _) = _
  rw [hu, e1]
  show (if s.e = true then pure _ else pull8 _ >>= _) = _
  by_cases he : s.e = true
  · simp only [if_pos he]
    rfl
  · obtain ⟨e3, -⟩ := AfterPulls.pull8 (u := { s.advance 1 with
      s := s.spUp 3, p := p, x := x, y := y
      pc := word (s.seen .stack (s.pullSlot 2)) (s.seen .stack (s.pullSlot 1)) }) after3 (h 3 (by rw [if_neg he]; decide))
    simp only [if_neg he]
    rw [e3]
    rfl

/-- Settles O49: the status byte through `SetP`, the rest of the frame as it is pulled. -/
theorem rtiPullsTheFrame : Obligations.RtiPullsTheFrame := by
  intro s h
  obtain ⟨p, x, y, hp, e⟩ := rti_of_canRead h
  exact ⟨encodes_implied rfl s, p, x, y, hp, finish_next.2 e⟩

/-- The two bits that emulation mode forces to 1 (R39). -/
theorem getLsbD_forced : ∀ k, k < 8 → (0x30 : Byte).getLsbD k = decide (k = 4 ∨ k = 5) := by decide

/-- Writing back the status byte that an event pushed restores P, and leaves X and Y, under the invariants of R38: in
emulation mode the bit 4 that the event wrote is forced to 1 again, which it was. -/
theorem statusWritten_pushed {s : State} {status p : Byte} {x y : Word} {b : Bool} (hf : s.WidthsForced) (hn : s.IndexNarrow)
    (hs : StatusIs s.p status (if s.e then [(4, b)] else [])) (hw : StatusWritten s status p x y) :
    p = s.p ∧ x = s.x ∧ y = s.y := by
  obtain ⟨hp, hx, hy⟩ := hw
  have same : p = s.p := by
    rw [hp]
    cases he : s.e with
    | false =>
      rw [he] at hs
      exact byte_ext hs
    | true =>
      rw [he] at hs
      obtain ⟨hM, hX⟩ := hf he
      refine byte_ext fun k hk => ?_
      rw [if_pos rfl, BitVec.getLsbD_or, hs k hk]
      rw [getLsbD_forced k hk]
      by_cases h5 : k = 5
      · rw [h5]
        exact (Bool.or_true _).trans hM.symm
      by_cases h4 : k = 4
      · rw [h4]
        exact (Bool.or_true _).trans hX.symm
      · have other : (k == 4) = false := by simpa using h4
        simp [List.lookup_cons, other, h4, h5]
  subst same
  refine ⟨rfl, ?_, ?_⟩
  · rw [hx]
    split
    · next h4 => exact word_zero_lo (hn h4).1
    · rfl
  · rw [hy]
    split
    · next h4 => exact word_zero_lo (hn h4).2
    · rfl

/-- What the pulls find after an event pushed its frame (R411, R413). -/
theorem frame_found {s t : State} {r : Word} {status : Byte} (hw : s.CanWrite s.slot (if s.e then 3 else 4))
    (hp : PushedAt s t.mem (frame s r status)) (hs : t.s = s.spDown (if s.e then 3 else 4)) (he : t.e = s.e)
    (hmap : t.memMap = s.memMap) :
    t.CanRead .stack t.pullSlot (if s.e then 3 else 4) ∧ t.seen .stack (t.pullSlot 0) = status ∧
      t.seen .stack (t.pullSlot 1) = lo r ∧ t.seen .stack (t.pullSlot 2) = hi r ∧
      (s.e = false → t.seen .stack (t.pullSlot 3) = s.pbr) := by
  unfold frame at hp
  by_cases e : s.e = true
  · simp only [if_pos e] at hw hp hs ⊢
    have found := fun j => seen_pullSlot hw hp (by simp) hs he hmap (j := j)
    exact ⟨fun j hj => (found j hj).1.readable, (found 0 (by simp)).2, (found 1 (by simp)).2, (found 2 (by simp)).2,
      fun h => absurd e (by simp [h])⟩
  · simp only [if_neg e] at hw hp hs ⊢
    have found := fun j => seen_pullSlot hw hp (by simp) hs he hmap (j := j)
    exact ⟨fun j hj => (found j hj).1.readable, (found 0 (by simp)).2, (found 1 (by simp)).2, (found 2 (by simp)).2,
      fun _ => (found 3 (by simp)).2⟩

/-- Settles O13: RTI finds the frame that the entry pushed, in the order it wants it. -/
theorem rtiUndoesEntry : Obligations.RtiUndoesEntry := by
  rintro k r s t ⟨hf, -, hn, -⟩ hw ⟨status, p, m, hstatus, -, pushed, ht⟩
  have te : t.e = s.e := by rw [ht]
  have ts : t.s = s.spDown (if s.e then 3 else 4) := by rw [ht]
  obtain ⟨readable, f0, f1, f2, f3⟩ := frame_found hw (by rw [ht]; exact pushed) ts te (by rw [ht])
  rw [← te] at readable
  obtain ⟨p', x', y', hp, e⟩ := rti_of_canRead readable
  rw [f0] at hp
  obtain ⟨rfl, rfl, rfl⟩ : p' = s.p ∧ x' = s.x ∧ y' = s.y := by
    refine statusWritten_pushed hf hn hstatus ?_
    rw [ht] at hp
    exact hp
  have bank : (if s.e then t.pbr else t.seen .stack (t.pullSlot 3)) = if s.e then 0 else s.pbr := by
    by_cases h : s.e = true
    · rw [if_pos h, if_pos h, ht]
    · rw [if_neg h, if_neg h, f3 (by simpa using h)]
  rw [te, f1, f2, word_hi_lo, spUp_of_pushed ts te, bank] at e
  refine finish_next.2 (e.trans ?_)
  rw [ht]

end Sys2Proof.Machine
end

section
/-!
SUPPORT. The boundary of a step (R405, R406): which event is chosen, and the state that its entry or the reset leaves; the
vectors (R410); words of the spec that decode (R460).
-/
namespace Sys2Proof.Machine

/-! ### The choice of the event -/

theorem step_of_reset {s : State} (ha : s.input.abort = false) (hr : s.input.reset = true) :
    step s = finish (doReset s.sample) := by
  simp [step, chooseAction, ha, hr]

theorem step_of_nmi {s : State} (ha : s.input.abort = false) (hr : s.input.reset = false) (hrun : s.run ≠ .stopped)
    (hn : s.nmiPending = true ∨ s.input.nmiEdge = true) : step s = finish (enterNmi s.sample) := by
  simp [step, chooseAction, ha, hr, hrun, hn]

theorem step_of_irq {s : State} (ha : s.input.abort = false) (hr : s.input.reset = false) (hrun : s.run ≠ .stopped)
    (hp : s.nmiPending = false) (he : s.input.nmiEdge = false) (hi : s.input.irq = true) (hm : s.flagI = false) :
    step s = finish (enterIrq s.sample) := by
  simp [step, chooseAction, ha, hr, hrun, hp, he, hi, hm]

/-- The status byte after a reset has M, X and I set and D clear, whatever the free bits are (R450). -/
theorem resetStatus_bits (v : Byte) : ((v &&& 0xC3) ||| 0x34).getLsbD 5 = true ∧ ((v &&& 0xC3) ||| 0x34).getLsbD 4 = true ∧
    ((v &&& 0xC3) ||| 0x34).getLsbD 2 = true ∧ ((v &&& 0xC3) ||| 0x34).getLsbD 3 = false := by
  simp

/-- Settles O7: the fields that R450 gives a value, from the one state that the reset sequence can answer. -/
theorem resetLineResets : Obligations.ResetLineResets := by
  intro s ha hr hv
  obtain ⟨t, ht⟩ := doReset_of_canRead (s := s.sample) hv
  have reset := doReset_ok ht
  have status : t.p = (Config.resetNVZC s.sample.draw &&& 0xC3) ||| 0x34 := congrArg State.p reset
  obtain ⟨hM, hX, hI, hD⟩ := resetStatus_bits (Config.resetNVZC s.sample.draw)
  rw [← status] at hM hX hI hD
  have other (a : Addr) (h : ¬ s.Writable a) : t.byteAt a = s.byteAt a :=
    (congrArg (fun u => State.byteAt u a) reset).trans (get_redrawRam_other h _ _)
  have hx : hi t.x = 0 := by rw [reset]; exact hi_word _ _
  have hy : hi t.y = 0 := by rw [reset]; exact hi_word _ _
  have hs : hi t.s = 0x01 := by rw [reset]; exact hi_word _ _
  exact ⟨t, (step_of_reset ha hr).trans (finish_next.2 ht), congrArg State.e reset, hM, hX, hI, hD, hx, hy, hs,
    congrArg State.d reset, congrArg State.dbr reset, congrArg State.pbr reset, congrArg State.run reset,
    congrArg State.nmiPending reset, congrArg State.pc reset, other, (congrArg State.memMap reset).trans s.sample_memMap,
    (congrArg State.vectors reset).trans s.sample_vectors, (congrArg State.inputs reset).trans s.sample_inputs,
    (congrArg State.deviceWrites reset).trans s.sample_deviceWrites, (congrArg State.draw reset).trans s.sample_draw⟩

/-- Settles O9: the latch is cleared before the one entry sequence of all events. -/
theorem nmiTakenAtBoundary : Obligations.NmiTakenAtBoundary := by
  intro s ha hr hrun hn hc
  obtain ⟨t, ht, entered, -⟩ := interrupt_of_canEnter (k := .nmi)
    (s := { s.sample with nmiPending := false, run := .running }) hc s.pc
  exact ⟨t, (step_of_nmi ha hr hrun hn).trans (finish_next.2 ht), entered⟩

/-- Settles O10: with no NMI there, sampling the inputs leaves the latch clear. -/
theorem irqTakenAtBoundary : Obligations.IrqTakenAtBoundary := by
  intro s ha hr hrun hp he hi hm hc
  obtain ⟨t, ht, entered, -⟩ := interrupt_of_canEnter (k := .irq) (s := { s.sample with run := .running }) hc s.pc
  refine ⟨t, (step_of_irq ha hr hrun hp he hi hm).trans (finish_next.2 ht), ?_⟩
  have sampled : { s.sample with run := .running } =
      { s with inputs := s.inputs.tail, draw := s.draw + 1, run := .running } := by
    simp [State.sample, hp, he]
  rw [← sampled]
  exact entered

/-- All that BRK and COP do, with the address after their signature byte (R340, R341). -/
theorem softInterrupt_of_canEnter {k : Event} {s : State} (h : s.CanEnter k) :
    ∃ t, softInterrupt k s = .ok t ∧ Entered k (s.pcn 2) s t := by
  obtain ⟨t, e, entered, -⟩ := interrupt_of_canEnter (s := s.advance 2) h (s.pcn 2)
  exact ⟨t, e, entered.of_advance⟩

/-- Settles O11: entry overwrites PC, so that it may be read off the state before the advance. -/
theorem brkAndCopEnter : Obligations.BrkAndCopEnter := by
  refine fun s sig => ⟨fun h => ⟨encodes_one rfl s sig, ?_⟩, fun h => ⟨encodes_one rfl s sig, ?_⟩⟩
  all_goals
    obtain ⟨t, e, entered⟩ := softInterrupt_of_canEnter h
    exact ⟨t, finish_next.2 e, entered⟩

theorem vectorEA_toNat (v : Word) (k : Nat) : (vectorEA v k).toNat = (v.toNat + k) % 2 ^ 16 := by
  rw [vectorEA, bankAddr_toNat]
  simp

/-- Settles O12: the table's rows by definition, the place of a vector's bytes as a number. -/
theorem vectorsAreTheDefaults : Obligations.VectorsAreTheDefaults :=
  ⟨fun _ => ⟨rfl, rfl⟩, vectorEA_toNat, rfl⟩

/-- Settles O4: each word by running the decoder on it. -/
theorem listedWordsDecode : Obligations.ListedWordsDecode :=
  ⟨rfl, rfl, rfl, rfl, rfl, rfl, rfl, rfl, rfl, rfl⟩

end Sys2Proof.Machine
end

section
/-!
SUPPORT. Decoding and encoding are inverse, and every opcode byte has the length R102 gives it (R101 to R105, R108, R111). One
walk over the map of R105 says of each row how its instructions are spelled and in which list of R102 its opcode stands.
-/
namespace Sys2Proof
open Machine

/-! ### Decoding what was encoded -/

open Laws.DecodeEncode in
/-- Decoding gives every instruction back: one lemma of the family for each constructor, in the order of `Instr`. -/
theorem decode_encode : ∀ i : Instr, Laws.DecodeEncode.Statement i :=
  @Instr.rec Laws.DecodeEncode.Statement
    brk oraDpXInd cop oraSr tsbDp oraDp aslDp oraDpIndLong oraImm tsbAbs oraAbs aslAbs oraLong bpl oraDpIndY
    oraDpInd oraSrIndY trbDp oraDpX aslDpX oraDpIndLongY oraAbsY trbAbs oraAbsX aslAbsX oraLongX jsrAbs andDpXInd
    jsl andSr bitDp andDp rolDp andDpIndLong andImm bitAbs andAbs rolAbs andLong bmi andDpIndY andDpInd andSrIndY
    bitDpX andDpX rolDpX andDpIndLongY andAbsY bitAbsX andAbsX rolAbsX andLongX eorDpXInd wdm eorSr mvp eorDp
    lsrDp eorDpIndLong eorImm jmpAbs eorAbs lsrAbs eorLong bvc eorDpIndY eorDpInd eorSrIndY mvn eorDpX lsrDpX
    eorDpIndLongY eorAbsY jmlLong eorAbsX lsrAbsX eorLongX adcDpXInd per adcSr stzDp adcDp rorDp adcDpIndLong
    adcImm jmpInd adcAbs rorAbs adcLong bvs adcDpIndY adcDpInd adcSrIndY stzDpX adcDpX rorDpX adcDpIndLongY
    adcAbsY jmpIndX adcAbsX rorAbsX adcLongX bra staDpXInd brl staSr styDp staDp stxDp staDpIndLong bitImm styAbs
    staAbs stxAbs staLong bcc staDpIndY staDpInd staSrIndY styDpX staDpX stxDpY staDpIndLongY staAbsY stzAbs
    staAbsX stzAbsX staLongX ldyImm ldaDpXInd ldxImm ldaSr ldyDp ldaDp ldxDp ldaDpIndLong ldaImm ldyAbs ldaAbs
    ldxAbs ldaLong bcs ldaDpIndY ldaDpInd ldaSrIndY ldyDpX ldaDpX ldxDpY ldaDpIndLongY ldaAbsY ldyAbsX ldaAbsX
    ldxAbsY ldaLongX cpyImm cmpDpXInd rep cmpSr cpyDp cmpDp decDp cmpDpIndLong cmpImm cpyAbs cmpAbs decAbs
    cmpLong bne cmpDpIndY cmpDpInd cmpSrIndY pei cmpDpX decDpX cmpDpIndLongY cmpAbsY jmlInd cmpAbsX decAbsX
    cmpLongX cpxImm sbcDpXInd sep sbcSr cpxDp sbcDp incDp sbcDpIndLong sbcImm cpxAbs sbcAbs incAbs sbcLong beq
    sbcDpIndY sbcDpInd sbcSrIndY pea sbcDpX incDpX sbcDpIndLongY sbcAbsY jsrIndX sbcAbsX incAbsX sbcLongX php
    aslAcc phd clc incAcc tcs plp rolAcc pld sec decAcc tsc rti pha lsrAcc phk cli phy tcd rts pla rorAcc rtl
    sei ply tdc dey txa phb tya txs txy tay tax plb clv tsx tyx iny dex wai cld phx stp inx nop xba sed plx xce

/-- Settles O1, constructor by constructor. -/
theorem encodeThenDecode : Obligations.EncodeThenDecode := decode_encode

/-! ### The map of R105, row by row -/

/-- The instructions that a format makes are spelled with the opcode byte `op` and the operand bytes of the format. All are
well-formed, an immediate at the width of its flag alone (R101, R102, R103). -/
def Shape.SpelledWith (op : Byte) : Shape → Prop
  | .implied i => ∀ m x, encode i = [op] ∧ i.wellFormed m x = true
  | .one f => ∀ m x b, encode (f b) = [op, b] ∧ (f b).wellFormed m x = true
  | .two f => ∀ m x v, encode (f v) = op :: bytes2 v ∧ (f v).wellFormed m x = true
  | .three f => ∀ m x a, encode (f a) = op :: bytes3 a ∧ (f a).wellFormed m x = true
  | .immA f => ∀ m x v, encode (f v) = op :: immBytes v ∧ (f v).wellFormed m x = (v.width == widthOf m)
  | .immI f => ∀ m x v, encode (f v) = op :: immBytes v ∧ (f v).wellFormed m x = (v.width == widthOf x)
  | .banks f => ∀ m x d s, encode (f d s) = [op, d, s] ∧ (f d s).wellFormed m x = true

/-- The opcodes of the immediates of accumulator width (R102). -/
def accumulatorImmediates : List Byte := [0x09, 0x29, 0x49, 0x69, 0x89, 0xA9, 0xC9, 0xE9]

/-- The opcodes of the immediates of index width (R102). -/
def indexImmediates : List Byte := [0xA0, 0xA2, 0xC0, 0xE0]

/-- The list of R102 that holds the opcodes of a format. -/
def Shape.opcodes : Shape → List Byte
  | .implied _ => oneByteOpcodes
  | .one _ => twoByteOpcodes
  | .two _ => threeByteOpcodes
  | .three _ => fourByteOpcodes
  | .immA _ => accumulatorImmediates
  | .immI _ => indexImmediates
  | .banks _ => threeByteOpcodes

/-- What the map says of an opcode byte by giving it this format. -/
structure Shape.RowOf (sh : Shape) (op : Byte) : Prop where
  spelled : sh.SpelledWith op
  listed : op ∈ sh.opcodes

/-- Each of the 256 rows, by the equations of `encode` and `wellFormed` for its constructor. -/
theorem opcodeRows_rowOf :
    ∀ r ∈ opcodeRows.zipIdx, ∀ c ∈ r.1.zipIdx, c.1.RowOf (BitVec.ofNat 8 (16 * r.2 + c.2)) := by
  simp only [opcodeRows, List.cons_append, List.nil_append, opcodeRow0, opcodeRow1, opcodeRow2, opcodeRow3, opcodeRow4,
    opcodeRow5, opcodeRow6, opcodeRow7, opcodeRow8, opcodeRow9, opcodeRowA, opcodeRowB, opcodeRowC, opcodeRowD,
    opcodeRowE, opcodeRowF, List.zipIdx_cons, List.zipIdx_nil, List.forall_mem_cons, List.not_mem_nil, false_implies,
    implies_true, and_true]
  and_intros
  all_goals
    refine ⟨?_, List.mem_of_elem_eq_true rfl⟩
    intro m x
    intros
    exact ⟨rfl, rfl⟩

theorem opcodeRows_length : ∀ row ∈ opcodeRows, row.length = 16 := by decide

theorem rowOf_of_shapeOf {op : Byte} {sh : Shape} (h : shapeOf op = some sh) : sh.RowOf op := by
  obtain ⟨row, hr, hc⟩ := Option.bind_eq_some_iff.1 h
  have rowOf := opcodeRows_rowOf _ (List.mk_mem_zipIdx_iff_getElem?.2 hr) _ (List.mk_mem_zipIdx_iff_getElem?.2 hc)
  rwa [Nat.div_add_mod, BitVec.ofNat_toNat, BitVec.setWidth_eq] at rowOf

/-- No opcode byte is unassigned (R108). -/
theorem exists_shapeOf (op : Byte) : ∃ sh, shapeOf op = some sh := by
  have hrow : op.toNat / 16 < opcodeRows.length := by
    have := op.isLt
    show _ < 16
    omega
  have hcol : op.toNat % 16 < (opcodeRows[op.toNat / 16]).length := by
    rw [opcodeRows_length _ (List.getElem_mem hrow)]
    exact Nat.mod_lt _ (by decide)
  exact ⟨_, Option.bind_eq_some_iff.2 ⟨_, List.getElem?_eq_getElem hrow, List.getElem?_eq_getElem hcol⟩⟩

theorem decode_of_shapeOf {op : Byte} {sh : Shape} (h : shapeOf op = some sh) (m x : Bool) (bs : List Byte) :
    decode m x (op :: bs) = sh.read m x bs := by
  rw [decode, h]

theorem lengthOf_of_shapeOf {op : Byte} {sh : Shape} (h : shapeOf op = some sh) (m x : Bool) :
    lengthOf m x op = 1 + sh.operands m x := by
  rw [lengthOf, h]

/-! ### Encoding what was decoded -/

@[simp] theorem bytes2_word (h l : Byte) : bytes2 (word h l) = [l, h] := by simp [bytes2]

@[simp] theorem bytes3_addr (b h l : Byte) : bytes3 (addr b (word h l)) = [l, h, b] := by simp [bytes3]

/-- All that reading an immediate can answer: one of the flag's width, whose bytes were there (R102). -/
theorem readImm_ok {flag : Bool} {f : Imm → Instr} {bs rest : List Byte} {i : Instr}
    (h : readImm flag f bs = .ok (i, rest)) :
    ∃ v : Imm, i = f v ∧ (v.width == widthOf flag) = true ∧ bs = immBytes v ++ rest := by
  cases flag with
  | true =>
    match bs, h with
    | b :: rest, rfl => exact ⟨.byte b, rfl, rfl, rfl⟩
  | false =>
    match bs, h with
    | b0 :: b1 :: rest, rfl => exact ⟨.word (word b1 b0), rfl, rfl, by simp [immBytes]⟩

/-- All that reading the operands of a format can answer: a well-formed instruction whose operand bytes were there. -/
theorem Shape.read_ok {op : Byte} {sh : Shape} (spelled : sh.SpelledWith op) {m x : Bool} {bs rest : List Byte} {i : Instr}
    (h : sh.read m x bs = .ok (i, rest)) :
    ∃ operands, encode i = op :: operands ∧ bs = operands ++ rest ∧ i.wellFormed m x = true := by
  cases sh with
  | implied j =>
    cases h
    exact ⟨[], (spelled m x).1, rfl, (spelled m x).2⟩
  | one f =>
    match bs, h with
    | b :: rest, rfl => exact ⟨[b], (spelled m x b).1, rfl, (spelled m x b).2⟩
  | two f =>
    match bs, h with
    | b0 :: b1 :: rest, rfl =>
      obtain ⟨e, wf⟩ := spelled m x (word b1 b0)
      exact ⟨[b0, b1], by rw [e, bytes2_word], rfl, wf⟩
  | three f =>
    match bs, h with
    | b0 :: b1 :: b2 :: rest, rfl =>
      obtain ⟨e, wf⟩ := spelled m x (addr b2 (word b1 b0))
      exact ⟨[b0, b1, b2], by rw [e, bytes3_addr], rfl, wf⟩
  | immA f | immI f =>
    obtain ⟨v, rfl, hw, e⟩ := readImm_ok h
    exact ⟨immBytes v, (spelled m x v).1, e, (spelled m x v).2.trans hw⟩
  | banks f =>
    match bs, h with
    | d :: s :: rest, rfl => exact ⟨[d, s], (spelled m x d s).1, rfl, (spelled m x d s).2⟩

/-- All that a decoder can answer. -/
theorem decode_cons_ok {op : Byte} {m x : Bool} {bs rest : List Byte} {i : Instr}
    (h : decode m x (op :: bs) = .ok (i, rest)) :
    ∃ operands, encode i = op :: operands ∧ bs = operands ++ rest ∧ i.wellFormed m x = true := by
  obtain ⟨sh, hsh⟩ := exists_shapeOf op
  rw [decode_of_shapeOf hsh] at h
  exact Shape.read_ok (rowOf_of_shapeOf hsh).spelled h

/-- Settles O2, by the format of the first byte. -/
theorem decodeThenEncode : Obligations.DecodeThenEncode := by
  intro m x bs rest i h
  cases bs with
  | nil => cases h
  | cons op bs =>
    obtain ⟨operands, henc, rfl, wf⟩ := decode_cons_ok h
    exact ⟨wf, by rw [henc, List.cons_append]⟩

/-! ### Every byte decodes, and the lengths of R102 -/

/-- Three operand bytes are enough for every format, whatever their values (R108). -/
theorem Shape.read_of_three (sh : Shape) (m x : Bool) (b1 b2 b3 : Byte) (rest : List Byte) :
    ∃ i, sh.read m x (b1 :: b2 :: b3 :: rest) = .ok (i, (b1 :: b2 :: b3 :: rest).drop (sh.operands m x)) := by
  cases sh with
  | immA f => cases m <;> exact ⟨_, rfl⟩
  | immI f => cases x <;> exact ⟨_, rfl⟩
  | _ => exact ⟨_, rfl⟩

theorem decode_of_four (m x : Bool) (op b1 b2 b3 : Byte) (rest : List Byte) : ∃ i,
    decode m x (op :: b1 :: b2 :: b3 :: rest) = .ok (i, (op :: b1 :: b2 :: b3 :: rest).drop (lengthOf m x op)) := by
  obtain ⟨sh, hsh⟩ := exists_shapeOf op
  rw [decode_of_shapeOf hsh, lengthOf_of_shapeOf hsh, Nat.add_comm]
  exact sh.read_of_three m x b1 b2 b3 rest

theorem opcode_of_decode {op : Byte} {m x : Bool} {bs rest : List Byte} {i : Instr}
    (h : decode m x (op :: bs) = .ok (i, rest)) : i.opcode = op := by
  obtain ⟨operands, henc, -, -⟩ := decode_cons_ok h
  rw [Instr.opcode, henc]
  rfl

/-- The opcodes that each list names have the list's length, by looking each of them up in the map. -/
theorem lengthOf_listed (m x : Bool) :
    (∀ op ∈ accumulatorImmediates, lengthOf m x op = 1 + immLength m) ∧
    (∀ op ∈ indexImmediates, lengthOf m x op = 1 + immLength x) ∧
    (∀ op ∈ oneByteOpcodes, lengthOf m x op = 1) ∧ (∀ op ∈ twoByteOpcodes, lengthOf m x op = 2) ∧
    (∀ op ∈ threeByteOpcodes, lengthOf m x op = 3) ∧ ∀ op ∈ fourByteOpcodes, lengthOf m x op = 4 := by
  simp only [accumulatorImmediates, indexImmediates, oneByteOpcodes, twoByteOpcodes, threeByteOpcodes, fourByteOpcodes,
    List.forall_mem_cons, List.not_mem_nil, false_implies, implies_true, and_true]
  and_intros
  all_goals rfl

/-- The six lists leave out no byte. -/
theorem opcode_listed (op : Byte) : op ∈ accumulatorImmediates ∨ op ∈ indexImmediates ∨ op ∈ oneByteOpcodes ∨
    op ∈ twoByteOpcodes ∨ op ∈ threeByteOpcodes ∨ op ∈ fourByteOpcodes := by
  obtain ⟨sh, hsh⟩ := exists_shapeOf op
  have listed := (rowOf_of_shapeOf hsh).listed
  cases sh with
  | immA => exact .inl listed
  | immI => exact .inr (.inl listed)
  | implied => exact .inr (.inr (.inl listed))
  | one => exact .inr (.inr (.inr (.inl listed)))
  | two | banks => exact .inr (.inr (.inr (.inr (.inl listed))))
  | three => exact .inr (.inr (.inr (.inr (.inr listed))))

theorem one_add_immLength (flag : Bool) : 1 + immLength flag = if flag then 2 else 3 := by cases flag <;> rfl

theorem lengthOf_eq (m x : Bool) (op : Byte) : lengthOf m x op =
    if op ∈ accumulatorImmediates then (if m then 2 else 3)
    else if op ∈ indexImmediates then (if x then 2 else 3)
    else if op ∈ oneByteOpcodes then 1
    else if op ∈ twoByteOpcodes then 2
    else if op ∈ threeByteOpcodes then 3
    else if op ∈ fourByteOpcodes then 4
    else 0 := by
  obtain ⟨immA, immI, one, two, three, four⟩ := lengthOf_listed m x
  split
  · next h => rw [immA op h, one_add_immLength]
  split
  · next h => rw [immI op h, one_add_immLength]
  split
  · next h => exact one op h
  split
  · next h => exact two op h
  split
  · next h => exact three op h
  split
  · next h => exact four op h
  exact absurd (opcode_listed op) (by simp [*])

/-- Settles O3: three bytes after the opcode are enough for every format. -/
theorem everyByteValueDecodes : Obligations.EveryByteValueDecodes := by
  refine ⟨fun m x op b1 b2 b3 rest => ?_, lengthOf_eq⟩
  obtain ⟨i, h⟩ := decode_of_four m x op b1 b2 b3 rest
  exact ⟨i, h, opcode_of_decode h⟩

end Sys2Proof
end

section
/-!
SUPPORT. The instructions that write the accumulator from an operand they read, an immediate among its forms; AND, ORA and EOR
(R132, R194 to R196).
-/
namespace Sys2Proof.Machine

/-! ### Immediates -/

theorem width_of_operandIs {s : State} {w : Width} {v : Imm} {m : BitVec w.bits} (h : OperandIs s w (.imm v) m) :
    v.width = w := by
  cases w <;> obtain rfl := h <;> rfl

/-- An immediate of the accumulator's width is encoded as P.M says (R102). -/
theorem encodes_immA {op : Byte} {f : Imm → Instr} (h : shapeOf op = some (.immA f)) {s : State} {v : Imm}
    {m : BitVec s.wA.bits} (hv : OperandIs s s.wA (.imm v) m) : Encodes s (op :: immBytes v) (f v) :=
  decode_immA h _ _ (beq_iff_eq.2 (width_of_operandIs hv))

/-! ### Reading at the accumulator's width -/

/-- Each form in the table, when its operand is there at the accumulator's width, is an instruction that does `meaning` with
it. Of `Means` this differs by the premise on the operand, without which an immediate may have the other width. -/
def ReadsAcc (form : Source → Option (Byte × Instr)) (meaning : Source → State → Acc State) : Prop :=
  ∀ (s : State) (o : Source) (op : Byte) (i : Instr) (m : BitVec s.wA.bits), form o = some (op, i) →
    OperandIs s s.wA o m → Encodes s (op :: o.encoded) i ∧ exec i s = finish (meaning o s)

/-- A mnemonic that loads its operand and writes a result to the accumulator, with N and Z of it. -/
theorem writesAcc_of_reads {form : Source → Option (Byte × Instr)} {meaning : Source → State → Acc State}
    (hreads : ReadsAcc form meaning) {s : State} {res : BitVec s.wA.bits → BitVec s.wA.bits}
    (hrun : ∀ o m, o.load s s.wA = .ok m → meaning o s = .ok (((s.advance o.length).writeA (res m)).setNZ (res m))) :
    WritesAcc form s res (fun m => nz (res m)) := by
  intro o op i m hform hm
  obtain ⟨henc, hexec⟩ := hreads s o op i m hform hm
  refine ⟨henc, _, _, accIs_writeA s (res m), statusIs_setNZ s (res m), ?_⟩
  rw [hexec, hrun o m (Source.load_of_operandIs hm), o.length_encoded]
  rfl

/-! ### Logic -/

/-- The three mnemonics have the same fifteen forms. -/
theorem logicalForm_reads : ∀ r ∈ [(andForm, andOp), (oraForm, ora), (eorForm, eor)], ReadsAcc r.1 r.2 := by
  intro r hr s o op i m h hm
  simp only [List.mem_cons, List.not_mem_nil, or_false] at hr
  cases o with
  | imm v =>
    rcases hr with rfl | rfl | rfl <;> cases h <;> exact ⟨encodes_immA rfl hm, rfl⟩
  | mem o =>
    cases o
    case abs | absX | absY =>
      rcases hr with rfl | rfl | rfl <;> cases h <;> exact ⟨encodes_two rfl s _, rfl⟩
    case long | longX =>
      rcases hr with rfl | rfl | rfl <;> cases h <;> exact ⟨encodes_three rfl s _, rfl⟩
    all_goals rcases hr with rfl | rfl | rfl <;> cases h <;> exact ⟨encodes_one rfl s _, rfl⟩

theorem logic_of_load {f : (w : Nat) → BitVec w → BitVec w → BitVec w} {o : Source} {s : State} {m : BitVec s.wA.bits}
    (h : o.load s s.wA = .ok m) : logic f o s =
      .ok (((s.advance o.length).writeA (f s.wA.bits (s.accAt s.wA) m)).setNZ (f s.wA.bits (s.accAt s.wA) m)) := by
  unfold logic
  rw [h]
  rfl

/-- A logical operation writes its result, with N and Z of it, by every form. -/
theorem logic_writes {form : Source → Option (Byte × Instr)} {f : (w : Nat) → BitVec w → BitVec w → BitVec w}
    (hreads : ReadsAcc form (logic f)) (s : State) :
    WritesAcc form s (f s.wA.bits (s.accAt s.wA)) (fun m => nz (f s.wA.bits (s.accAt s.wA) m)) :=
  writesAcc_of_reads hreads fun _ _ => logic_of_load

/-- Settles O36: each of the three is a logical operation. -/
theorem logicalInstructions : Obligations.LogicalInstructions := by
  intro s a
  have reads := logicalForm_reads
  exact ⟨logic_writes (f := fun _ a m => a &&& m) (reads (andForm, andOp) (by simp)) s,
    logic_writes (f := fun _ a m => a ||| m) (reads (oraForm, ora) (by simp)) s,
    logic_writes (f := fun _ a m => a ^^^ m) (reads (eorForm, eor) (by simp)) s⟩

end Sys2Proof.Machine
end

section
/-!
SUPPORT. The boundary at which an instruction runs: nothing is asserted that would be taken, and the bytes at PBR:PC decode
(R104, R405).
-/
namespace Sys2Proof.Machine

/-- A running core at a quiet boundary executes; an IRQ may be asserted as long as it is masked (R405). -/
theorem executes_of_quiet {s : State} (hrun : s.run = .running) (hp : s.nmiPending = false) (ha : s.input.abort = false)
    (hr : s.input.reset = false) (he : s.input.nmiEdge = false) (hi : s.input.irq = true → s.flagI = true) :
    s.Executes := by
  have masked : (s.input.irq && !s.flagI) = false := by
    cases h : s.input.irq with
    | false => rfl
    | true => rw [hi h]; rfl
  simp [State.Executes, chooseAction, ha, hr, hrun, hp, he, masked]

theorem step_of_executes {s : State} (h : s.Executes) : step s = executeOne s.sample := by
  unfold step
  rw [h]

theorem executeOne_of_fetch {s : State} {i : Instr} (h : fetch s = .ok i) : executeOne s = exec i s := by
  unfold executeOne
  rw [h]

/-- With no NMI there, sampling the inputs leaves the latch clear. -/
theorem sample_of_noNmi {s : State} (hp : s.nmiPending = false) (he : s.input.nmiEdge = false) :
    s.sample = { s with inputs := s.inputs.tail, draw := s.draw + 1 } := by
  simp [State.sample, hp, he]

/-- Settles O5: the sampled state is fetched from, and sampling changes neither the map nor the flags. -/
theorem stepRunsDecodedInstruction : Obligations.StepRunsDecodedInstruction := by
  intro s i n u hrun hp ha hr he hi hn hread hdec
  subst hn
  rw [step_of_executes (executes_of_quiet hrun hp ha hr he hi), sample_of_noNmi hp he]
  exact executeOne_of_fetch (fetch_of_decode (s := u) hread hdec)

end Sys2Proof.Machine
end

section
/-!
SUPPORT. The addresses of the memory modes as sums (R130 to R152). Each statement pairs a mode's address function with the
number its bytes lie at: 24-bit sums that carry for data and long addresses, 16-bit sums in bank 0 for the direct page and
the stack, a page that wraps where R130 says so.
-/
namespace Sys2Proof.Machine

/-! ### Bases in the data bank and on the stack -/

theorem linear_dataAddr_toNat (s : State) (o : Word) (k : Nat) :
    (linear (s.dataAddr o) k).toNat = (s.dbr.toNat * 65536 + o.toNat + k) % 2 ^ 24 := by
  rw [linear_toNat, dataAddr_toNat]

theorem indexed_dataAddr_toNat (s : State) (o i : Word) (k : Nat) :
    (indexed (s.dataAddr o) i k).toNat = (s.dbr.toNat * 65536 + o.toNat + i.toNat + k) % 2 ^ 24 := by
  rw [indexed_toNat, dataAddr_toNat]

/-- Byte `k` of a stack-relative operand: S plus the offset, modulo 2^16 in bank 0 (R151). -/
theorem stackRelative_toNat (s : State) (o : Byte) (k : Nat) :
    (bankAddr 0 (s.s + o.setWidth 16) k).toNat = (s.s.toNat + o.toNat + k) % 2 ^ 16 := by
  have offset : (o.setWidth 16).toNat = o.toNat := BitVec.toNat_setWidth_of_le (by decide)
  rw [bankAddr_toNat, BitVec.toNat_add, offset, show (0 : Byte).toNat = 0 from rfl]
  omega

/-! ### The statements on addressing modes -/

/-- Settles O27: the base of each mode is linear, or linear with an index added at 24 bits. -/
theorem absoluteAndLongAddresses : Obligations.AbsoluteAndLongAddresses := fun s a l =>
  ⟨⟨_, rfl, linear_dataAddr_toNat s a⟩, ⟨_, rfl, indexed_dataAddr_toNat s a s.x⟩, ⟨_, rfl, indexed_dataAddr_toNat s a s.y⟩,
    ⟨_, rfl, linear_toNat l⟩, ⟨_, rfl, indexed_toNat l s.x⟩⟩

/-- Settles O28: the direct-page modes are `DPW` of the offset, the index added to it before any wrap (R130, R141, R142). -/
theorem directPageAndStackAddresses : Obligations.DirectPageAndStackAddresses := fun s o =>
  ⟨⟨_, rfl, dpw_toNat s o.toNat⟩, ⟨_, rfl, dpw_toNat s (o.toNat + s.x.toNat)⟩, ⟨_, rfl, dpw_toNat s (o.toNat + s.y.toNat)⟩,
    ⟨_, rfl, stackRelative_toNat s o⟩⟩

/-- Settles O29: the pointer that can be read is the base, in the data bank when it has two bytes and as it is when it has
three. -/
theorem indirectAddresses : Obligations.IndirectAddresses := by
  intro s o
  refine ⟨fun hptr => ⟨?dpInd, ?dpIndY⟩, fun hptr => ?dpXInd, fun hptr => ⟨?dpIndLong, ?dpIndLongY⟩, fun hptr => ?srIndY⟩
  case dpInd => exact ⟨_, MemMode.ea_dpInd hptr, fun k => by simp only [linear_dataAddr_toNat, Nat.add_zero]⟩
  case dpIndY => exact ⟨_, MemMode.ea_dpIndY hptr, indexed_dataAddr_toNat s _ s.y⟩
  case dpXInd => exact ⟨_, MemMode.ea_dpXInd hptr, fun k => by simp only [linear_dataAddr_toNat, Nat.add_zero]⟩
  case dpIndLong => exact ⟨_, MemMode.ea_dpIndLong hptr, linear_toNat _⟩
  case dpIndLongY => exact ⟨_, MemMode.ea_dpIndLongY hptr, indexed_toNat _ s.y⟩
  case srIndY => exact ⟨_, MemMode.ea_srIndY hptr, indexed_dataAddr_toNat s _ s.y⟩

end Sys2Proof.Machine
end

section
/-!
SUPPORT. The loads of a register from an operand they read, at the accumulator's width and at the index registers' (R170 to
R172).
-/
namespace Sys2Proof.Machine

/-! ### LDA -/

theorem ldaForm_reads : ReadsAcc ldaForm lda := by
  intro s o op i m h hm
  refine ⟨?_, exec_ldaForm h s⟩
  cases o with
  | imm v => cases h; exact encodes_immA rfl hm
  | mem o =>
    cases o <;> cases h
    case mem.abs | mem.absX | mem.absY => exact encodes_two rfl s _
    case mem.long | mem.longX => exact encodes_three rfl s _
    all_goals exact encodes_one rfl s _

theorem lda_of_load {o : Source} {s : State} {m : BitVec s.wA.bits} (h : o.load s s.wA = .ok m) :
    lda o s = .ok (((s.advance o.length).writeA m).setNZ m) := by
  unfold lda
  rw [h]
  rfl

/-- Settles O30: the operand itself is the result. -/
theorem ldaLoads : Obligations.LdaLoads := fun _ =>
  writesAcc_of_reads (res := id) ldaForm_reads fun _ _ => lda_of_load

/-! ### Reading at the index registers' width -/

/-- An immediate of the index registers' width is encoded as P.X says (R102). -/
theorem encodes_immI {op : Byte} {f : Imm → Instr} (h : shapeOf op = some (.immI f)) {s : State} {v : Imm}
    {m : BitVec s.wI.bits} (hv : OperandIs s s.wI (.imm v) m) : Encodes s (op :: immBytes v) (f v) :=
  decode_immI h _ _ (beq_iff_eq.2 (width_of_operandIs hv))

/-- `ReadsAcc` for the mnemonics whose operand has the index registers' width. -/
def ReadsIndex (form : Source → Option (Byte × Instr)) (meaning : Source → State → Acc State) : Prop :=
  ∀ (s : State) (o : Source) (op : Byte) (i : Instr) (m : BitVec s.wI.bits), form o = some (op, i) →
    OperandIs s s.wI o m → Encodes s (op :: o.encoded) i ∧ exec i s = finish (meaning o s)

/-! ### LDX and LDY -/

theorem ldxForm_reads : ReadsIndex ldxForm ldx := by
  intro s o op i m h hm
  cases o with
  | imm v => cases h; exact ⟨encodes_immI rfl hm, rfl⟩
  | mem o =>
    cases o <;> cases h
    case mem.abs | mem.absY => exact ⟨encodes_two rfl s _, rfl⟩
    case mem.dp | mem.dpY => exact ⟨encodes_one rfl s _, rfl⟩

theorem ldyForm_reads : ReadsIndex ldyForm ldy := by
  intro s o op i m h hm
  cases o with
  | imm v => cases h; exact ⟨encodes_immI rfl hm, rfl⟩
  | mem o =>
    cases o <;> cases h
    case mem.abs | mem.absX => exact ⟨encodes_two rfl s _, rfl⟩
    case mem.dp | mem.dpX => exact ⟨encodes_one rfl s _, rfl⟩

theorem ldx_of_load {o : Source} {s : State} {m : BitVec s.wI.bits} (h : o.load s s.wI = .ok m) :
    ldx o s = .ok (((s.advance o.length).writeX m).setNZ m) := by
  unfold ldx
  rw [h]
  rfl

theorem ldy_of_load {o : Source} {s : State} {m : BitVec s.wI.bits} (h : o.load s s.wI = .ok m) :
    ldy o s = .ok (((s.advance o.length).writeY m).setNZ m) := by
  unfold ldy
  rw [h]
  rfl

/-- Settles O31: each load is a write of its register at the index width, with N and Z of what was written. -/
theorem ldxAndLdyLoad : Obligations.LdxAndLdyLoad := by
  intro s o op i m hm
  have hload := Source.load_of_operandIs hm
  refine ⟨fun hform => ?ldx, fun hform => ?ldy⟩
  case ldx =>
    obtain ⟨henc, hexec⟩ := ldxForm_reads s o op i m hform hm
    refine ⟨henc, _, _, indexIs_writeX s m, statusIs_setNZ s m, ?_⟩
    rw [hexec, ldx_of_load hload, o.length_encoded]
    rfl
  case ldy =>
    obtain ⟨henc, hexec⟩ := ldyForm_reads s o op i m hform hm
    refine ⟨henc, _, _, indexIs_writeY s m, statusIs_setNZ s m, ?_⟩
    rw [hexec, ldy_of_load hload, o.length_encoded]
    rfl

end Sys2Proof.Machine
end

section
/-!
SUPPORT. ADC and SBC (R190 to R193, R197): what every form of them writes, their sums in binary, and their digit sums in
decimal.
-/
namespace Sys2Proof.Machine

/-! ### What the instructions do with their sum -/

/-- The status bits that ADC and SBC write. -/
def Sum.flags {w : Nat} (r : Sum w) : List (Nat × Bool) := (0, r.carry) :: (6, r.overflow) :: nz r.res

theorem accIs_applySum (s : State) (r : Sum s.wA.bits) : AccIs s.c (s.applySum r).c s.wA r.res := by
  rw [State.applySum_c, ← State.writeA_c]
  exact accIs_writeA s r.res

theorem statusIs_applySum (s : State) {w : Nat} (r : Sum w) : StatusIs s.p (s.applySum r).p r.flags := by
  have carryAndOverflow := ((StatusIs.refl s.p).setBit 0 (by decide) r.carry).setBit 6 (by decide) r.overflow
  refine (carryAndOverflow.setNZ (s := (s.setC r.carry).setV r.overflow) r.res).congr fun k _ => ?_
  exact lookup_swap r.overflow r.carry (nz r.res) (by decide) k

theorem sumForm_reads : ∀ r ∈ [(adcForm, adc), (sbcForm, sbc)], ReadsAcc r.1 r.2 := by
  intro r hr s o op i m h hm
  simp only [List.mem_cons, List.not_mem_nil, or_false] at hr
  cases o with
  | imm v => rcases hr with rfl | rfl <;> cases h <;> exact ⟨encodes_immA rfl hm, rfl⟩
  | mem o =>
    cases o
    case abs | absX | absY => rcases hr with rfl | rfl <;> cases h <;> exact ⟨encodes_two rfl s _, rfl⟩
    case long | longX => rcases hr with rfl | rfl <;> cases h <;> exact ⟨encodes_three rfl s _, rfl⟩
    all_goals rcases hr with rfl | rfl <;> cases h <;> exact ⟨encodes_one rfl s _, rfl⟩

/-- A mnemonic that loads its operand and applies a sum of it. -/
theorem writesAcc_of_sum {form : Source → Option (Byte × Instr)} {meaning : Source → State → Acc State}
    (hreads : ReadsAcc form meaning) {s : State} {sum : BitVec s.wA.bits → Sum s.wA.bits}
    (hrun : ∀ o m, o.load s s.wA = .ok m → meaning o s = .ok ((s.advance o.length).applySum (sum m))) :
    WritesAcc form s (fun m => (sum m).res) (fun m => (sum m).flags) := by
  intro o op i m hform hm
  obtain ⟨henc, hexec⟩ := hreads s o op i m hform hm
  refine ⟨henc, _, _, accIs_applySum s (sum m), statusIs_applySum s (sum m), ?_⟩
  rw [hexec, hrun o m (Source.load_of_operandIs hm), o.length_encoded]
  rfl

theorem adc_of_load {o : Source} {s : State} {m : BitVec s.wA.bits} (h : o.load s s.wA = .ok m) :
    adc o s = .ok ((s.advance o.length).applySum (adcSum s.flagD (s.accAt s.wA) m s.flagC)) := by
  unfold adc
  rw [h]
  rfl

theorem sbc_of_load {o : Source} {s : State} {m : BitVec s.wA.bits} (h : o.load s s.wA = .ok m) :
    sbc o s = .ok ((s.advance o.length).applySum (sbcSum s.flagD (s.accAt s.wA) m s.flagC)) := by
  unfold sbc
  rw [h]
  rfl

theorem adc_writes (s : State) :
    WritesAcc adcForm s (fun m => (adcSum s.flagD (s.accAt s.wA) m s.flagC).res)
      (fun m => (adcSum s.flagD (s.accAt s.wA) m s.flagC).flags) :=
  writesAcc_of_sum (sumForm_reads (adcForm, adc) (by simp)) fun _ _ => adc_of_load

theorem sbc_writes (s : State) :
    WritesAcc sbcForm s (fun m => (sbcSum s.flagD (s.accAt s.wA) m s.flagC).res)
      (fun m => (sbcSum s.flagD (s.accAt s.wA) m s.flagC).flags) :=
  writesAcc_of_sum (sumForm_reads (sbcForm, sbc) (by simp)) fun _ _ => sbc_of_load

/-! ### P.D chooses the sum -/

theorem adcSum_binary {w : Nat} (a m : BitVec w) (cin : Bool) : adcSum false a m cin = addBinary a m cin := rfl

theorem sbcSum_binary {w : Nat} (a m : BitVec w) (cin : Bool) : sbcSum false a m cin = subBinary a m cin := rfl

theorem adcSum_decimal {w : Nat} (a m : BitVec w) (cin : Bool) : adcSum true a m cin = addDecimal a m cin := rfl

theorem sbcSum_decimal {w : Nat} (a m : BitVec w) (cin : Bool) : sbcSum true a m cin = subDecimal a m cin := rfl

/-! ### Binary sums -/

theorem width_bits_pos (w : Width) : 0 < w.bits := by cases w <;> decide

/-- Result and carry together are the sum. -/
theorem addBinary_toNat {w : Nat} (a m : BitVec w) (cin : Bool) :
    (addBinary a m cin).res.toNat + (if (addBinary a m cin).carry then 2 ^ w else 0) = a.toNat + m.toNat + cin.toNat := by
  have ha := a.isLt
  have hm := m.isLt
  have hc := cin.toNat_le
  simp only [addBinary, BitVec.toNat_ofNat, decide_eq_true_eq]
  split
  case isTrue carry => rw [Nat.mod_eq_sub_mod carry, Nat.mod_eq_of_lt (by omega)]; omega
  case isFalse fits => rw [Nat.mod_eq_of_lt (by omega)]; rfl

/-- The overflow bit of R190 says that the signed sum does not fit: with `2 ^ (w - 1)` named, the sign bits and the signed
values are linear in the values as numbers. -/
theorem addBinary_overflow {w : Nat} (hw : 0 < w) (a m : BitVec w) (cin : Bool) :
    (addBinary a m cin).overflow = decide (¬ FitsSigned w (a.toInt + m.toInt + cin.toNat)) := by
  have ha := a.isLt
  have hm := m.isLt
  have hc := cin.toNat_le
  have hr := (addBinary a m cin).res.isLt
  have sum := addBinary_toNat a m cin
  have double := (Nat.two_pow_pred_mul_two hw).symm
  have bound : (2 : Int) ^ (w - 1) = ((2 ^ (w - 1) : Nat) : Int) := by norm_cast
  have signs : (addBinary a m cin).overflow =
      ((a.msb ^^ (addBinary a m cin).res.msb) && (m.msb ^^ (addBinary a m cin).res.msb)) := by
    simp only [addBinary, BitVec.msb_and, BitVec.msb_xor]
  rw [signs, Bool.eq_iff_iff, decide_eq_true_iff]
  simp only [FitsSigned, BitVec.msb_eq_decide, BitVec.toInt_eq_toNat_cond, Bool.and_eq_true, bne_iff_ne, ne_eq,
    decide_eq_decide, bound, double] at ha hm hr sum ⊢
  generalize 2 ^ (w - 1) = half at *
  split at sum <;> split <;> split <;> omega

theorem toInt_not_eq_neg {w : Nat} (hw : 0 < w) (m : BitVec w) : (~~~m).toInt = -m.toInt - 1 := by
  have hm := m.isLt
  rw [BitVec.toInt_eq_toNat_cond, BitVec.toInt_eq_toNat_cond, BitVec.toNat_not]
  rw [← Nat.two_pow_pred_mul_two hw] at hm ⊢
  split <;> split <;> omega

/-- The borrow is 1 when C is 0 (R191). -/
theorem borrow_add_carry (cin : Bool) : (!cin).toNat + cin.toNat = 1 := by cases cin <;> rfl

theorem subBinary_res {w : Nat} (a m : BitVec w) (cin : Bool) :
    (subBinary a m cin).res = BitVec.ofInt w (a.toNat - (m.toNat : Int) - (!cin).toNat) := by
  have hc := borrow_add_carry cin
  have hm := m.isLt
  have sum : ((a.toNat + (~~~m).toNat + cin.toNat : Nat) : Int) =
      a.toNat - (m.toNat : Int) - (!cin).toNat + (2 ^ w : Nat) := by
    rw [BitVec.toNat_not]
    omega
  apply BitVec.eq_of_toNat_eq
  show (BitVec.ofNat w _).toNat = _
  rw [← BitVec.ofInt_natCast, sum, BitVec.toNat_ofInt, BitVec.toNat_ofInt, Int.add_emod_right]

theorem subBinary_carry {w : Nat} (a m : BitVec w) (cin : Bool) :
    (subBinary a m cin).carry = decide (m.toNat + (!cin).toNat ≤ a.toNat) := by
  have hc := borrow_add_carry cin
  have hm := m.isLt
  show decide (2 ^ w ≤ a.toNat + (~~~m).toNat + cin.toNat) = _
  rw [BitVec.toNat_not, decide_eq_decide]
  omega

theorem subBinary_overflow {w : Nat} (hw : 0 < w) (a m : BitVec w) (cin : Bool) :
    (subBinary a m cin).overflow = decide (¬ FitsSigned w (a.toInt - m.toInt - (!cin).toNat)) := by
  have hc := borrow_add_carry cin
  have sum : a.toInt + (~~~m).toInt + cin.toNat = a.toInt - m.toInt - (!cin).toNat := by
    rw [toInt_not_eq_neg hw]
    omega
  rw [subBinary, addBinary_overflow hw, sum]

/-- Settles O33: with P.D clear the sum is the binary one. -/
theorem adcAddsBinary : Obligations.AdcAddsBinary := by
  intro s hd
  have writes := adc_writes s
  simp only [hd, adcSum_binary, Sum.flags, addBinary_overflow (width_bits_pos s.wA)] at writes
  exact writes

/-- Settles O34: adding the complement with the carry subtracts, less the borrow. -/
theorem sbcSubtractsBinary : Obligations.SbcSubtractsBinary := by
  intro s hd
  have writes := sbc_writes s
  simp only [hd, sbcSum_binary, Sum.flags, subBinary_res, subBinary_carry, subBinary_overflow (width_bits_pos s.wA)] at writes
  exact writes

/-! ### Decimal digits -/

/-- `k` digits are those below `d`, the digit `d` and those above it. -/
theorem pow_split_at_digit {d k : Nat} (hd : d < k) : 16 ^ k = 16 ^ d * (16 * 16 ^ (k - d - 1)) := by
  rw [← Nat.pow_succ', ← Nat.pow_add]
  congr 1
  omega

/-- A digit put in front of `d` digits does not change them. -/
theorem digit_append_of_lt {r t d j : Nat} (hj : j < d) : digit (r + t * 16 ^ d) j = digit r j := by
  have shift : r + t * 16 ^ d = r + 16 ^ j * (16 * (t * 16 ^ (d - j - 1))) := by
    rw [pow_split_at_digit hj]
    simp only [Nat.mul_left_comm]
  rw [digit, shift, Nat.add_mul_div_left _ _ (Nat.pow_pos (by decide)), Nat.add_mul_mod_self_left]
  rfl

/-- The digit in front of `d` digits. -/
theorem digit_append_self {r t d : Nat} (hr : r < 16 ^ d) (ht : t < 16) : digit (r + t * 16 ^ d) d = t := by
  rw [digit, Nat.add_mul_div_right _ _ (Nat.pow_pos (by decide)), Nat.div_eq_of_lt hr, Nat.zero_add, Nat.mod_eq_of_lt ht]

theorem validBcd_congr {u v k : Nat} (h : ∀ j, j < k → digit u j = digit v j) : ValidBcd u k ↔ ValidBcd v k := by
  induction k with
  | zero => rfl
  | succ k ih => rw [ValidBcd, ValidBcd, h k k.lt_succ_self, ih fun j hj => h j (by omega)]

theorem bcdValue_congr {u v k : Nat} (h : ∀ j, j < k → digit u j = digit v j) : bcdValue u k = bcdValue v k := by
  induction k with
  | zero => rfl
  | succ k ih => rw [bcdValue, bcdValue, h k k.lt_succ_self, ih fun j hj => h j (by omega)]

/-- Every digit is at most 9, so that `k` of them spell less than `10 ^ k`. -/
theorem bcdValue_lt {v k : Nat} (h : ValidBcd v k) : bcdValue v k < 10 ^ k := by
  induction k with
  | zero => exact Nat.one_pos
  | succ k ih =>
    obtain ⟨hdigit, hrest⟩ := h
    calc bcdValue v k + digit v k * 10 ^ k
      _ < 10 ^ k + 9 * 10 ^ k := Nat.add_lt_add_of_lt_of_le (ih hrest) (Nat.mul_le_mul_right _ hdigit)
      _ = 10 ^ (k + 1) := by rw [Nat.pow_succ]; omega

/-- The digits of the one's complement are the complements of the digits to 15. -/
theorem digit_complement {m d k : Nat} (hm : m < 16 ^ k) (hd : d < k) : digit (16 ^ k - 1 - m) d = 15 - digit m d := by
  rw [pow_split_at_digit hd] at hm ⊢
  have high : m / 16 ^ d < 16 * 16 ^ (k - d - 1) := Nat.div_lt_of_lt_mul hm
  rw [digit, digit, Nat.sub_right_comm, Nat.sub_sub, Nat.mul_sub_div _ _ _ hm]
  omega

/-! ### Digit-serial sums -/

/-- The `k` digits so far are valid, and with the carry as the digit in front of them they spell `n`. -/
structure Decimal.Spells (r : Decimal) (k n : Nat) : Prop where
  lt : r.res < 16 ^ k
  valid : ValidBcd r.res k
  value : bcdValue r.res k + r.carry.toNat * 10 ^ k = n

/-- One more digit: the two digits added, `x` together, and the carry in are the new digit and ten times the carry out. -/
theorem Decimal.Spells.append {r : Decimal} {k n t x last : Nat} {c : Bool} (h : r.Spells k n) (ht : t ≤ 9)
    (hx : x + r.carry.toNat = t + 10 * c.toNat) :
    Decimal.Spells { res := r.res + t * 16 ^ k, carry := c, lastSum := last } (k + 1) (n + x * 10 ^ k) := by
  have top : digit (r.res + t * 16 ^ k) k = t := digit_append_self h.lt (by omega)
  have low (j : Nat) (hj : j < k) : digit (r.res + t * 16 ^ k) j = digit r.res j := digit_append_of_lt hj
  refine ⟨?lt, ⟨Nat.le_trans (Nat.le_of_eq top) ht, (validBcd_congr low).2 h.valid⟩, ?value⟩
  case lt =>
    calc r.res + t * 16 ^ k
      _ < 16 ^ k + 9 * 16 ^ k := Nat.add_lt_add_of_lt_of_le h.lt (Nat.mul_le_mul_right _ ht)
      _ ≤ 16 ^ (k + 1) := by rw [Nat.pow_succ]; omega
  case value =>
    calc bcdValue (r.res + t * 16 ^ k) k + digit (r.res + t * 16 ^ k) k * 10 ^ k + c.toNat * 10 ^ (k + 1)
      _ = bcdValue r.res k + (t + 10 * c.toNat) * 10 ^ k := by
        rw [bcdValue_congr low, top, Nat.add_mul, Nat.pow_succ', Nat.mul_assoc, Nat.mul_left_comm 10, Nat.add_assoc]
      _ = bcdValue r.res k + r.carry.toNat * 10 ^ k + x * 10 ^ k := by rw [← hx, Nat.add_mul]; omega
      _ = n + x * 10 ^ k := by rw [h.value]

/-- The adjustment of R192 after two valid digits and a carry: a digit sum above 9 becomes its last digit and a carry. -/
theorem addDigit_adjusted {s t : Nat} (hs : s ≤ 19) (ht : t = if 9 < s then s + 6 else s) :
    t % 16 ≤ 9 ∧ s = t % 16 + 10 * (decide (15 < t)).toNat := by
  by_cases h : 9 < s
  · rw [if_pos h] at ht
    simp only [show 15 < t by omega, decide_true, Bool.toNat_true]
    omega
  · rw [if_neg h] at ht
    simp only [show ¬ 15 < t by omega, decide_false, Bool.toNat_false]
    omega

/-- The adjustment of R193: the digit sum is 6 too high, for its complement is one to 15 and not to 9. -/
theorem subDigit_adjusted {s t : Nat} (hlow : 6 ≤ s) (hhigh : s ≤ 25) (ht : t = if s ≤ 15 then (s + 10) % 16 else s) :
    t % 16 ≤ 9 ∧ s = 6 + (t % 16 + 10 * (decide (15 < t)).toNat) := by
  by_cases h : s ≤ 15
  · rw [if_pos h] at ht
    simp only [show ¬ 15 < t by omega, decide_false, Bool.toNat_false]
    omega
  · rw [if_neg h] at ht
    simp only [show 15 < t by omega, decide_true, Bool.toNat_true]
    omega

theorem addDigits_spells {a m k : Nat} (cin : Bool) (ha : ValidBcd a k) (hm : ValidBcd m k) :
    (addDigits a m cin k).Spells k (bcdValue a k + bcdValue m k + cin.toNat) := by
  induction k with
  | zero => exact ⟨Nat.one_pos, trivial, by simp [addDigits, bcdValue]⟩
  | succ k ih =>
    obtain ⟨hak, ha⟩ := ha
    obtain ⟨hmk, hm⟩ := hm
    have hc := (addDigits a m cin k).carry.toNat_le
    obtain ⟨valid, sum⟩ := addDigit_adjusted (s := digit a k + digit m k + (addDigits a m cin k).carry.toNat)
      (by omega) rfl
    have total : bcdValue a (k + 1) + bcdValue m (k + 1) + cin.toNat =
        bcdValue a k + bcdValue m k + cin.toNat + (digit a k + digit m k) * 10 ^ k := by
      rw [bcdValue, bcdValue, Nat.add_mul]
      omega
    rw [total]
    exact (ih ha hm).append valid sum

/-- Subtraction adds the complement to `10 ^ k - 1`, digit by digit the complement to 9. -/
theorem subDigits_spells {a m mc k : Nat} (cin : Bool) (ha : ValidBcd a k) (hm : ValidBcd m k)
    (hmc : ∀ d, d < k → digit mc d = 15 - digit m d) :
    (subDigits a mc cin k).Spells k (bcdValue a k + (10 ^ k - 1 - bcdValue m k) + cin.toNat) := by
  induction k with
  | zero => exact ⟨Nat.one_pos, trivial, by simp [subDigits, bcdValue]⟩
  | succ k ih =>
    obtain ⟨hak, ha⟩ := ha
    obtain ⟨hmk, hm⟩ := hm
    have hc := (subDigits a mc cin k).carry.toNat_le
    have complement := hmc k k.lt_succ_self
    obtain ⟨valid, sum⟩ := subDigit_adjusted (s := digit a k + digit mc k + (subDigits a mc cin k).carry.toNat)
      (by omega) (by omega) rfl
    have total : bcdValue a (k + 1) + (10 ^ (k + 1) - 1 - bcdValue m (k + 1)) + cin.toNat =
        bcdValue a k + (10 ^ k - 1 - bcdValue m k) + cin.toNat + (digit a k + (9 - digit m k)) * 10 ^ k := by
      have hlt := bcdValue_lt hm
      have hle : digit m k * 10 ^ k ≤ 9 * 10 ^ k := Nat.mul_le_mul_right _ hmk
      rw [bcdValue, bcdValue, Nat.add_mul, Nat.sub_mul, Nat.pow_succ]
      omega
    rw [total]
    exact (ih ha hm fun d hd => hmc d (by omega)).append valid (by omega)

/-! ### Decimal sums -/

/-- The result is the valid number that spells `n` modulo ten to the number of digits, and C says that `n` has a digit
more (R192). -/
structure Sum.Spells {w : Nat} (r : Sum w) (n : Nat) : Prop where
  valid : ValidBcd r.res.toNat (w / 4)
  value : bcdValue r.res.toNat (w / 4) = n % 10 ^ (w / 4)
  carry : r.carry = decide (10 ^ (w / 4) ≤ n)

theorem two_pow_eq_digits {w : Nat} (hw : 4 * (w / 4) = w) : 2 ^ w = 16 ^ (w / 4) := by rw [← hw, Nat.pow_mul, hw]

theorem Decimal.Spells.sum {w n : Nat} {r : Decimal} (hw : 4 * (w / 4) = w) (h : r.Spells (w / 4) n) (v : Bool) :
    Sum.Spells { res := BitVec.ofNat w r.res, carry := r.carry, overflow := v } n := by
  have size := two_pow_eq_digits hw
  have res : (BitVec.ofNat w r.res).toNat = r.res := by rw [BitVec.toNat_ofNat, Nat.mod_eq_of_lt (size ▸ h.lt)]
  have hlt := bcdValue_lt h.valid
  refine ⟨by rw [res]; exact h.valid, ?value, ?carry⟩
  case value => rw [res, ← h.value, Nat.add_mul_mod_self_right, Nat.mod_eq_of_lt hlt]
  case carry =>
    rw [← h.value]
    cases r.carry <;> simp [hlt]

section
variable {w : Nat} {a m : BitVec w} (hw : 4 * (w / 4) = w) (cin : Bool) (ha : ValidBcd a.toNat (w / 4))
  (hm : ValidBcd m.toNat (w / 4))
include hw ha hm

theorem addDecimal_spells :
    (addDecimal a m cin).Spells (bcdValue a.toNat (w / 4) + bcdValue m.toNat (w / 4) + cin.toNat) :=
  (addDigits_spells cin ha hm).sum hw _

theorem subDecimal_spells :
    (subDecimal a m cin).Spells
      (bcdValue a.toNat (w / 4) + (10 ^ (w / 4) - 1 - bcdValue m.toNat (w / 4)) + cin.toNat) := by
  have size := two_pow_eq_digits hw
  refine (subDigits_spells cin ha hm fun d hd => ?_).sum hw _
  rw [BitVec.toNat_not, size]
  exact digit_complement (size ▸ m.isLt) hd

/-- Ten's complement: the sum is the difference less the borrow, raised by ten to the number of digits. -/
theorem subDecimal_value :
    (bcdValue (subDecimal a m cin).res.toNat (w / 4) : Int) =
      ((bcdValue a.toNat (w / 4) : Int) - bcdValue m.toNat (w / 4) - (!cin).toNat) % 10 ^ (w / 4) := by
  have hc := borrow_add_carry cin
  have hlt := bcdValue_lt hm
  have sum : ((bcdValue a.toNat (w / 4) + (10 ^ (w / 4) - 1 - bcdValue m.toNat (w / 4)) + cin.toNat : Nat) : Int) =
      (bcdValue a.toNat (w / 4) : Int) - bcdValue m.toNat (w / 4) - (!cin).toNat + (10 ^ (w / 4) : Nat) := by
    omega
  rw [(subDecimal_spells hw cin ha hm).value, Int.natCast_emod, sum, Int.add_emod_right]
  norm_cast

theorem subDecimal_carry :
    (subDecimal a m cin).carry = decide (bcdValue m.toNat (w / 4) + (!cin).toNat ≤ bcdValue a.toNat (w / 4)) := by
  have hc := borrow_add_carry cin
  have hlt := bcdValue_lt hm
  rw [(subDecimal_spells hw cin ha hm).carry, decide_eq_decide]
  omega

end

theorem four_mul_digits (w : Width) : 4 * (w.bits / 4) = w.bits := by cases w <;> rfl

/-- Settles O35: each of the two applies its decimal sum. -/
theorem decimalArithmetic : Obligations.DecimalArithmetic := by
  intro s o op i m hd hm k a ha hv
  have hk := four_mul_digits s.wA
  refine ⟨fun hform => ?adc, fun hform => ?sbc⟩
  case adc =>
    obtain ⟨-, c, p, hacc, hstatus, hexec⟩ := adc_writes s o op i m hform hm
    have sum := addDecimal_spells (a := s.accAt s.wA) hk s.flagC ha hv
    simp only [hd, adcSum_decimal, Sum.flags, sum.carry] at hacc hstatus
    exact ⟨_, c, _, p, sum.valid, sum.value, hacc, hstatus, hexec⟩
  case sbc =>
    obtain ⟨-, c, p, hacc, hstatus, hexec⟩ := sbc_writes s o op i m hform hm
    have valid := (subDecimal_spells (a := s.accAt s.wA) hk s.flagC ha hv).valid
    have value := subDecimal_value (a := s.accAt s.wA) hk s.flagC ha hv
    simp only [hd, sbcSum_decimal, Sum.flags, subDecimal_carry (a := s.accAt s.wA) hk s.flagC ha hv] at hacc hstatus
    exact ⟨_, c, _, p, valid, value, hacc, hstatus, hexec⟩

end Sys2Proof.Machine
end

section
/-!
SUPPORT. CMP, CPX and CPY (R226 to R228): the flags of a compare, at the accumulator's width and at the index registers'.
-/
namespace Sys2Proof.Machine

/-! ### The flags of a compare -/

/-- The status bits that a compare of `a` with `m` writes. -/
def compareFlags {w : Nat} (a m : BitVec w) : List (Nat × Bool) :=
  [(0, decide (m.toNat ≤ a.toNat)), (7, (a - m).getLsbD (w - 1)), (1, decide (a = m))]

/-- The wrapped difference is zero for equal values alone, so that Z says whether they are equal. -/
theorem nz_sub {w : Nat} (a m : BitVec w) : nz (a - m) = [(7, (a - m).getLsbD (w - 1)), (1, decide (a = m))] := by
  have hz : (a - m == 0) = decide (a = m) := by
    rw [Bool.eq_iff_iff, beq_iff_eq, decide_eq_true_iff]
    refine ⟨fun h => ?_, fun h => h ▸ BitVec.sub_self m⟩
    rw [← BitVec.sub_add_cancel a m, h]
    exact BitVec.zero_add m
  rw [nz, hz]

theorem statusIs_compare (s : State) {w : Nat} (a m : BitVec w) : StatusIs s.p (s.compare a m).p (compareFlags a m) := by
  have carry := (StatusIs.refl s.p).setBit 0 (by decide) (decide (m.toNat ≤ a.toNat))
  have all := carry.setNZ (s := s.setC (decide (m.toNat ≤ a.toNat))) (a - m)
  rw [nz_sub] at all
  exact all

/-! ### The three mnemonics -/

/-- A mnemonic that loads its operand and compares a register with it, at whatever width the two have. -/
theorem writesStatus_of_compare {form : Source → Option (Byte × Instr)} {meaning : Source → State → Acc State} {s : State}
    {w : Width} {a : BitVec w.bits}
    (hreads : ∀ o op i (m : BitVec w.bits), form o = some (op, i) → OperandIs s w o m →
      Encodes s (op :: o.encoded) i ∧ exec i s = finish (meaning o s))
    (hrun : ∀ o m, o.load s w = .ok m → meaning o s = .ok ((s.advance o.length).compare a m)) :
    WritesStatus form s w (compareFlags a) := by
  intro o op i m hform hm
  obtain ⟨henc, hexec⟩ := hreads o op i m hform hm
  refine ⟨henc, _, statusIs_compare s a m, ?_⟩
  rw [hexec, hrun o m (Source.load_of_operandIs hm), o.length_encoded]
  rfl

theorem cmpForm_reads : ReadsAcc cmpForm cmp := by
  intro s o op i m h hm
  cases o with
  | imm v => cases h; exact ⟨encodes_immA rfl hm, rfl⟩
  | mem o =>
    cases o <;> cases h
    case mem.abs | mem.absX | mem.absY => exact ⟨encodes_two rfl s _, rfl⟩
    case mem.long | mem.longX => exact ⟨encodes_three rfl s _, rfl⟩
    all_goals exact ⟨encodes_one rfl s _, rfl⟩

/-- CPX and CPY have the same three forms. -/
theorem indexCompareForm_reads : ∀ r ∈ [(cpxForm, cpx), (cpyForm, cpy)], ReadsIndex r.1 r.2 := by
  intro r hr s o op i m h hm
  simp only [List.mem_cons, List.not_mem_nil, or_false] at hr
  cases o with
  | imm v => rcases hr with rfl | rfl <;> cases h <;> exact ⟨encodes_immI rfl hm, rfl⟩
  | mem o =>
    cases o
    case abs => rcases hr with rfl | rfl <;> cases h <;> exact ⟨encodes_two rfl s _, rfl⟩
    case dp => rcases hr with rfl | rfl <;> cases h <;> exact ⟨encodes_one rfl s _, rfl⟩
    all_goals rcases hr with rfl | rfl <;> cases h

theorem cmp_of_load {o : Source} {s : State} {m : BitVec s.wA.bits} (h : o.load s s.wA = .ok m) :
    cmp o s = .ok ((s.advance o.length).compare (s.accAt s.wA) m) := by
  unfold cmp
  rw [h]
  rfl

theorem cpx_of_load {o : Source} {s : State} {m : BitVec s.wI.bits} (h : o.load s s.wI = .ok m) :
    cpx o s = .ok ((s.advance o.length).compare (s.xAt s.wI) m) := by
  unfold cpx
  rw [h]
  rfl

theorem cpy_of_load {o : Source} {s : State} {m : BitVec s.wI.bits} (h : o.load s s.wI = .ok m) :
    cpy o s = .ok ((s.advance o.length).compare (s.yAt s.wI) m) := by
  unfold cpy
  rw [h]
  rfl

/-- Settles O39: each of the three is a compare of its register with the operand. -/
theorem compares : Obligations.Compares := fun s =>
  ⟨writesStatus_of_compare (cmpForm_reads s) fun _ _ => cmp_of_load,
    writesStatus_of_compare (indexCompareForm_reads (cpxForm, cpx) (by simp) s) fun _ _ => cpx_of_load,
    writesStatus_of_compare (indexCompareForm_reads (cpyForm, cpy) (by simp) s) fun _ _ => cpy_of_load⟩

end Sys2Proof.Machine
end

section
/-!
SUPPORT. Branches and jumps (R240 to R255): where each goes, with nothing else changed.
-/
namespace Sys2Proof.Machine

/-! ### Branches -/

/-- A signed displacement may be added inside the program bank or among the integers: both count modulo 2^16 (R153, R154). -/
theorem pcn_add_displacement (s : State) (n : Nat) (z : Int) :
    s.pcn n + BitVec.ofInt 16 z = BitVec.ofInt 16 (s.pc.toNat + n + z) := by
  rw [State.pcn, BitVec.ofInt_add, BitVec.ofInt_add, BitVec.ofInt_natCast, BitVec.ofInt_natCast, BitVec.ofNat_toNat,
    BitVec.setWidth_eq]

theorem relTarget_pcn (s : State) (rel : Byte) :
    relTarget (s.pcn 2) rel = BitVec.ofInt 16 (s.pc.toNat + 2 + rel.toInt) :=
  pcn_add_displacement s 2 rel.toInt

theorem relLongTarget_pcn (s : State) (rell : Word) :
    relLongTarget (s.pcn 3) rell = BitVec.ofInt 16 (s.pc.toNat + 3 + rell.toInt) := by
  have target := pcn_add_displacement s 3 rell.toInt
  rw [BitVec.ofInt_toInt] at target
  exact target

theorem branch_eq (taken : Bool) (rel : Byte) (s : State) :
    branch taken rel s =
      .ok { s with pc := if taken then BitVec.ofInt 16 (s.pc.toNat + 2 + rel.toInt) else s.pcn 2 } := by
  rw [← relTarget_pcn]
  cases taken <;> rfl

theorem branchLong_eq (rell : Word) (s : State) :
    branchLong rell s = .ok { s with pc := BitVec.ofInt 16 (s.pc.toNat + 3 + rell.toInt) } := by
  rw [← relLongTarget_pcn]
  rfl

/-- A mnemonic that branches when `taken` says so (R240). -/
theorem branch_clause {s : State} {rel op : Byte} {f : Byte → Instr} {taken : Bool} (hshape : shapeOf op = some (.one f))
    (hexec : exec (f rel) s = finish (branch taken rel s)) :
    Encodes s [op, rel] (f rel) ∧
    exec (f rel) s = .next { s with
      pc := if taken then BitVec.ofInt 16 (s.pc.toNat + 2 + rel.toInt) else s.pcn 2 } :=
  ⟨encodes_one hshape s rel, hexec.trans (congrArg finish (branch_eq taken rel s))⟩

/-- Settles O40: each row of the table is a branch on its own flag, BRA one that is always taken. -/
theorem branchesTaken : Obligations.BranchesTaken := by
  intro s rel rell
  refine ⟨fun r hr => ?rows, encodes_two rfl s rell, finish_next.2 (branchLong_eq rell s)⟩
  case rows =>
    simp only [List.mem_cons, List.not_mem_nil, or_false] at hr
    rcases hr with rfl | rfl | rfl | rfl | rfl | rfl | rfl | rfl | rfl
    all_goals
      dsimp only
      exact branch_clause rfl rfl

/-! ### Jumps -/

theorem jumpInd_of_canRead {s : State} {a : Word} (h : s.CanRead .pointer (bankAddr 0 a) 2) :
    jumpInd a s = .ok { s with pc := s.valueAt .pointer (bankAddr 0 a) .w16 } := by
  rw [jumpInd, jumpPointer, read16_of_canRead h]
  rfl

theorem jumpIndX_of_canRead {s : State} {a : Word} (h : s.CanRead .pointer (bankAddr s.pbr (a + s.x)) 2) :
    jumpIndX a s = .ok { s with pc := s.valueAt .pointer (bankAddr s.pbr (a + s.x)) .w16 } := by
  rw [jumpIndX, jumpPointerX, read16_of_canRead h]
  rfl

theorem jumpIndLong_of_canRead {s : State} {a : Word} (h : s.CanRead .pointer (bankAddr 0 a) 3) :
    jumpIndLong a s = .ok { s with
      pc := offsetOf (s.pointerAt (bankAddr 0 a)), pbr := bankOf (s.pointerAt (bankAddr 0 a)) } := by
  rw [jumpIndLong, jumpPointerLong, read24_of_canRead h]
  rfl

/-- Settles O41: the direct jumps take their operand, the indirect ones the pointer, once it can be read. -/
theorem jumpsGoToTheirTarget : Obligations.JumpsGoToTheirTarget := fun s a l =>
  ⟨⟨encodes_two rfl s a, rfl⟩, ⟨encodes_three rfl s l, rfl⟩,
    fun h => ⟨encodes_two rfl s a, finish_next.2 (jumpInd_of_canRead h)⟩,
    fun h => ⟨encodes_two rfl s a, finish_next.2 (jumpIndX_of_canRead h)⟩,
    fun h => ⟨encodes_two rfl s a, finish_next.2 (jumpIndLong_of_canRead h)⟩⟩

end Sys2Proof.Machine
end

section
/-!
SUPPORT. Block moves (R300, R301): what one execution leaves, and by induction on C what C + 1 of them leave of a block in
RAM. MVN and MVP differ in the step of their offsets alone, so both whole moves are one theorem about any step that is taken again and again.
-/
namespace Sys2Proof.Machine

/-! ### One execution -/

theorem encodes_banks {op : Byte} {f : Byte → Byte → Instr} (h : shapeOf op = some (.banks f)) (s : State) (dst src : Byte) :
    Encodes s [op, dst, src] (f dst src) := decode_banks h _ _ dst src

/-- One execution of a block move between a readable byte and RAM. -/
theorem blockMove_of_readable {f : (w : Nat) → BitVec w → BitVec w} {dst src : Byte} {s : State}
    (hr : s.Readable .operand (addr src s.x)) (hw : s.Writable (addr dst s.y)) :
    blockMove f dst src s = .ok { s with
      dbr := dst
      mem := s.mem.set (addr dst s.y).toNat (s.seen .operand (addr src s.x))
      x := (s.writeX (f s.wI.bits (s.xAt s.wI))).x
      y := (s.writeY (f s.wI.bits (s.yAt s.wI))).y
      c := s.c - 1
      pc := if s.c = 0 then s.pcn 3 else s.pc } := by
  have last : s.c - 1 = 0xFFFF ↔ s.c = 0 := by bv_omega
  have hr : State.Readable { s with dbr := dst } .operand (addr src s.x) := hr
  have hw : State.Writable { s with dbr := dst } (addr dst s.y) := hw
  show (read8 { s with dbr := dst } .operand (addr src s.x) >>= _) = _
  rw [read8_of_readable hr]
  show (write8 { s with dbr := dst } .operand (addr dst s.y) (s.seen .operand (addr src s.x)) >>= _) = _
  rw [write8_of_writable hw]
  refine congrArg Except.ok ?_
  show (if s.c - 1 = 0xFFFF then _ else _) = _
  simp only [last]
  split <;> rfl

/-- Settles O50: the two moves copy the same byte and differ in the step of X and Y. -/
theorem blockMoveCopiesOneByte : Obligations.BlockMoveCopiesOneByte := fun s dst src hr hw =>
  ⟨_, storedAt_set s.mem _ _,
    ⟨encodes_banks rfl s dst src, _, _, indexIs_writeX s _, indexIs_writeY s _, finish_next.2 (blockMove_of_readable hr hw)⟩,
    encodes_banks rfl s dst src, _, _, indexIs_writeX s _, indexIs_writeY s _, finish_next.2 (blockMove_of_readable hr hw)⟩

/-! ### A whole block, for any step of the offsets -/

theorem execTimes_succ {i : Instr} {s t : State} (h : exec i s = .next t) (n : Nat) :
    execTimes i (n + 1) s = execTimes i n t := by
  rw [execTimes, h]

/-- The offset `v` after `k` steps. -/
def offsetAfter (step : Word → Word) (v : Word) : Nat → Word
  | 0 => v
  | k + 1 => offsetAfter step (step v) k

/-- The block of C + 1 bytes whose offsets go on by `step` can be moved at 16-bit index registers: the bytes read are RAM or
ROM, the bytes written RAM, and none of them is both. -/
structure MovableBlock (step : Word → Word) (dst src : Byte) (s : State) : Prop where
  wide : s.flagX = false
  source : ∀ k, k ≤ s.c.toNat → s.RamOrRom (addr src (offsetAfter step s.x k))
  target : ∀ k, k ≤ s.c.toNat → s.Writable (addr dst (offsetAfter step s.y k))
  disjoint : ∀ j k, j ≤ s.c.toNat → k ≤ s.c.toNat → addr src (offsetAfter step s.x j) ≠ addr dst (offsetAfter step s.y k)

/-- `m` is the memory of `s` after the bytes 0 to `n` of a block were copied, its offsets going on by `step`. -/
structure BlockCopied (step : Word → Word) (dst src : Byte) (n : Nat) (s : State) (m : Memory) : Prop where
  copied : ∀ k, k ≤ n → m.get (addr dst (offsetAfter step s.y k)).toNat = s.byteAt (addr src (offsetAfter step s.x k))
  kept : ∀ a : Addr, (∀ k, k ≤ n → a ≠ addr dst (offsetAfter step s.y k)) → m.get a.toNat = s.byteAt a

/-- The state after one execution of a block move at 16-bit index registers. -/
def State.moveByte (step : Word → Word) (dst src : Byte) (s : State) : State :=
  { s with
    dbr := dst
    mem := s.mem.set (addr dst s.y).toNat (s.byteAt (addr src s.x))
    x := step s.x
    y := step s.y
    c := s.c - 1
    pc := if s.c = 0 then s.pcn 3 else s.pc }

theorem State.byteAt_moveByte_same (step : Word → Word) (dst src : Byte) (s : State) :
    (s.moveByte step dst src).byteAt (addr dst s.y) = s.byteAt (addr src s.x) :=
  (get_write _ _ _).trans (if_pos rfl)

theorem State.byteAt_moveByte_other (step : Word → Word) {dst : Byte} (src : Byte) {s : State} {a : Addr}
    (h : a ≠ addr dst s.y) : (s.moveByte step dst src).byteAt a = s.byteAt a :=
  (get_write _ _ _).trans (if_neg h)

theorem writeX_of_wide (f : (w : Nat) → BitVec w → BitVec w) {s : State} (h : s.flagX = false) :
    (s.writeX (f s.wI.bits (s.xAt s.wI))).x = f 16 s.x := by
  have hwI : s.wI = .w16 := by rw [State.wI, h]; rfl
  rw [State.writeX_x, h, hwI]
  simp [State.xAt]

theorem writeY_of_wide (f : (w : Nat) → BitVec w → BitVec w) {s : State} (h : s.flagX = false) :
    (s.writeY (f s.wI.bits (s.yAt s.wI))).y = f 16 s.y := by
  have hwI : s.wI = .w16 := by rw [State.wI, h]; rfl
  rw [State.writeY_y, h, hwI]
  simp [State.yAt]

theorem MovableBlock.blockMove_eq {f : (w : Nat) → BitVec w → BitVec w} {dst src : Byte} {s : State}
    (h : MovableBlock (f 16) dst src s) : blockMove f dst src s = .ok (s.moveByte (f 16) dst src) := by
  have first : s.RamOrRom (addr src s.x) := h.source 0 (Nat.zero_le _)
  rw [blockMove_of_readable first.readable (h.target 0 (Nat.zero_le _)), first.seen, writeX_of_wide f h.wide,
    writeY_of_wide f h.wide]
  rfl

theorem State.moveByte_c_toNat {step : Word → Word} {dst src : Byte} {s : State} {n : Nat} (hc : s.c.toNat = n + 1) :
    (s.moveByte step dst src).c.toNat = n := by
  show (s.c - 1).toNat = n
  bv_omega

/-- After one byte the rest of the block can be moved. -/
theorem MovableBlock.moveByte {step : Word → Word} {dst src : Byte} {s : State} {n : Nat}
    (h : MovableBlock step dst src s) (hc : s.c.toNat = n + 1) : MovableBlock step dst src (s.moveByte step dst src) := by
  have shorter (k : Nat) (hk : k ≤ (s.moveByte step dst src).c.toNat) : k + 1 ≤ s.c.toNat := by
    rw [State.moveByte_c_toNat hc] at hk
    omega
  exact {
    wide := h.wide
    source := fun k hk => h.source (k + 1) (shorter k hk)
    target := fun k hk => h.target (k + 1) (shorter k hk)
    disjoint := fun j k hj hk => h.disjoint (j + 1) (k + 1) (shorter j hj) (shorter k hk) }

/-- A block of one byte. -/
theorem BlockCopied.single (step : Word → Word) (dst src : Byte) (s : State) :
    BlockCopied step dst src 0 s (s.moveByte step dst src).mem where
  copied k hk := by
    obtain rfl := Nat.le_zero.1 hk
    exact s.byteAt_moveByte_same step dst src
  kept a ha := State.byteAt_moveByte_other step src (ha 0 (Nat.le_refl 0))

/-- One byte and then the rest of the block: the first byte is not written again when no later offset is the first one, and
the later bytes were not written by the first when no byte read is one written. -/
theorem BlockCopied.cons {step : Word → Word} {dst src : Byte} {s : State} {n : Nat} {m : Memory}
    (h : MovableBlock step dst src s) (hc : s.c.toNat = n + 1) (fresh : ∀ k, k ≤ n → offsetAfter step s.y (k + 1) ≠ s.y)
    (rest : BlockCopied step dst src n (s.moveByte step dst src) m) : BlockCopied step dst src (n + 1) s m where
  copied
  | 0, _ => (rest.kept (addr dst s.y) fun k hk e => fresh k hk (addr_inj e).2.symm).trans (s.byteAt_moveByte_same step dst src)
  | k + 1, hk => (rest.copied k (by omega)).trans
      (State.byteAt_moveByte_other step src (h.disjoint (k + 1) 0 (by omega) (Nat.zero_le _)))
  kept a ha := (rest.kept a fun k hk => ha (k + 1) (by omega)).trans
    (State.byteAt_moveByte_other step src (ha 0 (Nat.zero_le _)))

/-- A block move executed C + 1 times copies the whole block, by induction on C, when its step comes back to no offset
within 2^16 - 1 bytes. -/
theorem MovableBlock.execTimes_eq {f : (w : Nat) → BitVec w → BitVec w} {i : Instr} {dst src : Byte}
    (hexec : ∀ s, exec i s = finish (blockMove f dst src s))
    (fresh : ∀ (v : Word) (k : Nat), k + 1 < 2 ^ 16 → offsetAfter (f 16) v (k + 1) ≠ v) {n : Nat} {s : State}
    (h : MovableBlock (f 16) dst src s) (hc : s.c.toNat = n) :
    ∃ m, execTimes i (n + 1) s = .next { s with
        dbr := dst, mem := m, c := 0xFFFF, pc := s.pcn 3, x := offsetAfter (f 16) s.x (n + 1), y := offsetAfter (f 16) s.y (n + 1) } ∧
      BlockCopied (f 16) dst src n s m := by
  have first {s : State} (h : MovableBlock (f 16) dst src s) : exec i s = .next (s.moveByte (f 16) dst src) :=
    (hexec s).trans (finish_next.2 h.blockMove_eq)
  induction n generalizing s with
  | zero =>
    have hc : s.c = 0 := BitVec.eq_of_toNat_eq hc
    refine ⟨_, ?_, .single (f 16) dst src s⟩
    rw [execTimes_succ (first h), State.moveByte, hc]
    rfl
  | succ n ih =>
    obtain ⟨m, run, rest⟩ := ih (h.moveByte hc) (State.moveByte_c_toNat hc)
    have more : s.c ≠ 0 := by
      intro e
      rw [e] at hc
      exact absurd hc (Nat.succ_ne_zero n).symm
    have inBank : n + 1 < 2 ^ 16 := hc ▸ s.c.isLt
    refine ⟨m, ?_, .cons h hc (fun k hk => fresh s.y k (by omega)) rest⟩
    have pc : (s.moveByte (f 16) dst src).pcn 3 = s.pcn 3 := congrArg (· + BitVec.ofNat 16 3) (if_neg more)
    rw [execTimes_succ (first h), run, pc]
    rfl

/-! ### The two directions -/

theorem offsetAfter_add_one (v : Word) (k : Nat) : offsetAfter (fun v => v + 1) v k = v + BitVec.ofNat 16 k := by
  induction k generalizing v with
  | zero => exact (BitVec.add_zero v).symm
  | succ k ih =>
    rw [offsetAfter, ih]
    bv_omega

theorem offsetAfter_sub_one (v : Word) (k : Nat) : offsetAfter (fun v => v - 1) v k = v - BitVec.ofNat 16 k := by
  induction k generalizing v with
  | zero => exact (BitVec.sub_zero v).symm
  | succ k ih =>
    rw [offsetAfter, ih]
    bv_omega

/-- Settles O51: the step of MVN adds 1. -/
theorem mvnCopiesTheWholeBlock : Obligations.MvnCopiesTheWholeBlock := by
  intro s dst src wide source target disjoint
  have block : MovableBlock (fun v => v + 1) dst src s :=
    ⟨wide, by simpa only [offsetAfter_add_one], by simpa only [offsetAfter_add_one], by simpa only [offsetAfter_add_one]⟩
  obtain ⟨m, run, copied, kept⟩ := block.execTimes_eq (f := fun _ v => v + 1) (i := .mvn dst src) (fun _ => rfl)
    (fun v k hk => by rw [offsetAfter_add_one]; bv_omega) rfl
  simp only [offsetAfter_add_one] at run copied kept
  exact ⟨m, run, copied, kept⟩

/-- Settles O52: the step of MVP subtracts 1. -/
theorem mvpCopiesTheWholeBlock : Obligations.MvpCopiesTheWholeBlock := by
  intro s dst src wide source target disjoint
  have block : MovableBlock (fun v => v - 1) dst src s :=
    ⟨wide, by simpa only [offsetAfter_sub_one], by simpa only [offsetAfter_sub_one], by simpa only [offsetAfter_sub_one]⟩
  obtain ⟨m, run, copied, kept⟩ := block.execTimes_eq (f := fun _ v => v - 1) (i := .mvp dst src) (fun _ => rfl)
    (fun v k hk => by rw [offsetAfter_sub_one]; bv_omega) rfl
  simp only [offsetAfter_sub_one] at run copied kept
  exact ⟨m, run, copied, kept⟩

end Sys2Proof.Machine
end

section
/-!
SUPPORT. BIT and the single-flag instructions (R310, R313 to R319): the status bits they write, with nothing else changed.
-/
namespace Sys2Proof.Machine

/-! ### BIT -/

/-- BIT, by the kind of its operand: the model has a meaning for each (R310). -/
def bitTest : Source → State → Acc State
  | .imm v => bitImmediate v
  | .mem m => bit m

theorem bitForm_reads : ReadsAcc bitForm bitTest := by
  intro s o op i m h hm
  cases o with
  | imm v => cases h; exact ⟨encodes_immA rfl hm, rfl⟩
  | mem o =>
    cases o <;> cases h
    case mem.dp | mem.dpX => exact ⟨encodes_one rfl s _, rfl⟩
    case mem.abs | mem.absX => exact ⟨encodes_two rfl s _, rfl⟩

theorem bitImmediate_of_load {v : Imm} {s : State} {m : BitVec s.wA.bits} (h : (Source.imm v).load s s.wA = .ok m) :
    bitImmediate v s = .ok ((s.advance (Source.imm v).length).testBits (s.accAt s.wA) m) := by
  obtain rfl : immAt s.wA v = m := Except.ok.inj h
  rfl

theorem bit_of_load {o : MemMode} {s : State} {m : BitVec s.wA.bits} (h : (Source.mem o).load s s.wA = .ok m) :
    bit o s = .ok ((((s.advance (Source.mem o).length).testBits (s.accAt s.wA) m).setN m.msb).setV
      (m.getLsbD (s.wA.bits - 2))) := by
  obtain ⟨ea, address, operand⟩ := bind_ok h
  unfold bit
  rw [address]
  show (readW s o.access ea s.wA >>= _) = _
  rw [operand]
  rfl

theorem statusIs_testBits (s : State) {w : Nat} (a m : BitVec w) :
    StatusIs s.p (s.testBits a m).p [(1, decide (a &&& m = 0))] :=
  (StatusIs.refl s.p).setBit 1 (by decide) _

/-- The memory forms write the top two bits of the operand after Z; the order does not matter. -/
theorem statusIs_testBits_top (s : State) {w : Nat} (a m : BitVec w) :
    StatusIs s.p (((s.testBits a m).setN m.msb).setV (m.getLsbD (w - 2))).p
      [(1, decide (a &&& m = 0)), (7, m.getLsbD (w - 1)), (6, m.getLsbD (w - 2))] := by
  rw [← BitVec.msb_eq_getLsbD_last]
  have written := ((statusIs_testBits s a m).setBit 7 (by decide) m.msb).setBit 6 (by decide) (m.getLsbD (w - 2))
  refine written.congr ?_
  generalize decide (a &&& m = 0) = z, m.msb = n, m.getLsbD (w - 2) = v
  decide +revert

/-- Settles O53: an immediate operand leaves N and V, a memory operand writes them from its top two bits. -/
theorem bitTests : Obligations.BitTests := by
  intro s o op i m hform hm
  obtain ⟨henc, hexec⟩ := bitForm_reads s o op i m hform hm
  have hload := Source.load_of_operandIs hm
  refine ⟨henc, ?_⟩
  rw [hexec, Source.length_encoded]
  cases o with
  | imm v => exact ⟨_, statusIs_testBits s (s.accAt s.wA) m, finish_next.2 (bitImmediate_of_load hload)⟩
  | mem o => exact ⟨_, statusIs_testBits_top s (s.accAt s.wA) m, finish_next.2 (bit_of_load hload)⟩

/-! ### The single-flag instructions -/

/-- An instruction without operand that writes bit `k` of the status byte and moves PC on by its one byte. -/
theorem singleFlag_clause {s : State} {op : Byte} {i : Instr} {k : Nat} {b : Bool} (hshape : shapeOf op = some (.implied i))
    (hk : k < 8) (hexec : exec i s = .next { s with pc := s.pcn 1, p := setBit s.p k b }) :
    Encodes s [op] i ∧ ∃ p, StatusIs s.p p [(k, b)] ∧ exec i s = .next { s with pc := s.pcn 1, p := p } :=
  ⟨encodes_implied hshape s, _, (StatusIs.refl s.p).setBit k hk b, hexec⟩

/-- Settles O55: each row of the table is a write of its own flag. -/
theorem singleFlagInstructions : Obligations.SingleFlagInstructions := by
  intro s r hr
  simp only [List.mem_cons, List.not_mem_nil, or_false] at hr
  rcases hr with rfl | rfl | rfl | rfl | rfl | rfl | rfl
  all_goals exact singleFlag_clause rfl (by decide) rfl

end Sys2Proof.Machine
end

section
/-!
SUPPORT. The system instructions WAI, STP, NOP and WDM, XCE and XBA (R342 to R347): the full state each leaves.
-/
namespace Sys2Proof.Machine

/-! ### XCE -/

/-- The full state after a mode switch (R344). -/
theorem State.switchMode_eq (s : State) (b : Bool) : s.switchMode b = { s with
    e := b
    p := if b then s.p ||| 0x30 else s.p
    x := if b then word 0 (lo s.x) else s.x
    y := if b then word 0 (lo s.y) else s.y
    s := if b then word 0x01 (lo s.s) else s.s } := by
  cases b with
  | false => rfl
  | true => rfl

/-- XCE writes the old E to C, and switches to the mode that the old C says (R344). -/
theorem exec_xce (s : State) : exec .xce s = .next (((s.advance 1).setC s.e).switchMode s.flagC) := rfl

/-- The two bits that emulation mode forces, as writes of M and X (R38). -/
theorem or_forced_eq_setBit (p : Byte) : p ||| 0x30 = setBit (setBit p 4 true) 5 true :=
  (BitVec.or_assoc p (BitVec.twoPow 8 4) (BitVec.twoPow 8 5)).symm

/-- Forcing M and X after other bits were written. -/
theorem StatusIs.forced {old new : Byte} {ws : List (Nat × Bool)} (h : StatusIs old new ws) :
    StatusIs old (new ||| 0x30) ((5, true) :: (4, true) :: ws) := by
  rw [or_forced_eq_setBit]
  exact (h.setBit 4 (by decide) true).setBit 5 (by decide) true

theorem statusIs_setC (s : State) (b : Bool) : StatusIs s.p (s.setC b).p [(0, b)] :=
  (StatusIs.refl s.p).setBit 0 (by decide) b

/-- The carry is neither of the bits that are forced, so that the order does not matter. -/
theorem statusIs_setC_forced (s : State) (b : Bool) :
    StatusIs s.p ((s.setC b).p ||| 0x30) [(0, b), (5, true), (4, true)] := by
  refine (statusIs_setC s b).forced.congr ?_
  decide +revert

/-- Settles O57: the old C says whether the new mode forces anything. -/
theorem xceExchangesModes : Obligations.XceExchangesModes := by
  intro s
  refine ⟨encodes_implied rfl s, _, ?_, (exec_xce s).trans (congrArg _ (State.switchMode_eq _ _))⟩
  cases s.flagC with
  | false => exact statusIs_setC s s.e
  | true => exact statusIs_setC_forced s s.e

/-! ### WAI, STP, NOP and WDM -/

/-- Settles O56: each advances PC past its bytes, and the first two then write RUN. -/
theorem waitStopAndNoOperation : Obligations.WaitStopAndNoOperation := by
  intro s sig
  exact ⟨⟨encodes_implied rfl s, rfl⟩, ⟨encodes_implied rfl s, rfl⟩, ⟨encodes_implied rfl s, rfl⟩,
    ⟨encodes_one rfl s sig, rfl⟩⟩

/-! ### XBA -/

/-- The new low byte is the old high byte, and gives N and Z at 8 bits (R345). -/
theorem xba_eq (s : State) :
    xba s = .ok ({ s.advance 1 with c := word (lo s.c) (hi s.c) }.setNZ (hi s.c)) := by
  simp only [xba, lo_word, pure, Except.pure]

/-- Settles O58, whatever the accumulator width. -/
theorem xbaExchangesBytes : Obligations.XbaExchangesBytes := by
  intro s
  exact ⟨encodes_implied rfl s, _, statusIs_setNZ s (hi s.c), finish_next.2 (xba_eq s)⟩

end Sys2Proof.Machine
end

section
/-!
SUPPORT. The boundary at which no event is entered and no instruction runs (R404, R405, R420): ABORT refused, a core that is
held, a wait that ends without vectoring.
-/
namespace Sys2Proof.Machine

theorem step_of_abort {s : State} (ha : s.input.abort = true) : step s = .refused .abortAsserted := by
  have refused : chooseAction s.input s.sample = .refuseAbort := if_pos ha
  rw [step, refused]

/-- Settles O6: ABORT is looked at before the other inputs, RESET among them. -/
theorem assertedAbortRefused : Obligations.AssertedAbortRefused := fun _ => step_of_abort

/-- A stopped core waits for RESET alone (R405). -/
theorem step_of_stopped {s : State} (ha : s.input.abort = false) (hr : s.input.reset = false) (hrun : s.run = .stopped) :
    step s = .next s.sample := by
  have idle : chooseAction s.input s.sample = .idle := by simp [chooseAction, ha, hr, hrun]
  rw [step, idle]

/-- A waiting core with no NMI there waits on where no IRQ is asserted (R405, R420). -/
theorem step_of_waiting {s : State} (ha : s.input.abort = false) (hr : s.input.reset = false) (hrun : s.run = .waiting)
    (hp : s.nmiPending = false) (he : s.input.nmiEdge = false) (hi : s.input.irq = false) : step s = .next s.sample := by
  have idle : chooseAction s.input s.sample = .idle := by simp [chooseAction, ha, hr, hrun, hp, he, hi]
  rw [step, idle]

/-- A waiting core with no NMI there runs on, without vectoring, where a masked IRQ is asserted (R405, R420). -/
theorem step_of_wake {s : State} (ha : s.input.abort = false) (hr : s.input.reset = false) (hrun : s.run = .waiting)
    (hp : s.nmiPending = false) (he : s.input.nmiEdge = false) (hi : s.input.irq = true) (hm : s.flagI = true) :
    step s = .next (wakeUp s.sample) := by
  have wake : chooseAction s.input s.sample = .wake := by simp [chooseAction, ha, hr, hrun, hp, he, hi, hm]
  rw [step, wake]

/-- Settles O8: a held core takes the sampled inputs alone, and of those the latch matters only where it is stopped. -/
theorem waitAndStopHoldTheCore : Obligations.WaitAndStopHoldTheCore := by
  intro s ha hr
  refine ⟨fun hrun => ?stopped, fun hrun hp he hi => ?waiting, fun hrun hp he hi hm => ?wakes⟩
  case stopped => exact step_of_stopped ha hr hrun
  case waiting => rw [step_of_waiting ha hr hrun hp he hi, sample_of_noNmi hp he]
  case wakes => rw [step_of_wake ha hr hrun hp he hi hm, sample_of_noNmi hp he, wakeUp]

end Sys2Proof.Machine
end

section
/-!
SUPPORT. The register transfers (R359 to R371): one lemma for each kind of destination, X, Y and A at their width, S, and all
16 bits of C.
-/
namespace Sys2Proof.Machine

/-! ### Destinations at the width of a flag -/

theorem toX_clause {s : State} {op : Byte} {i : Instr} {v : Word} (hshape : shapeOf op = some (.implied i))
    (hexec : exec i s = finish (toX v s)) :
    Encodes s [op] i ∧ ∃ x p, IndexIs x s.wI (v.setWidth s.wI.bits) ∧ StatusIs s.p p (nz (v.setWidth s.wI.bits)) ∧
      exec i s = .next { s with pc := s.pcn 1, x := x, p := p } :=
  ⟨encodes_implied hshape s, _, _, indexIs_writeX s _, statusIs_setNZ s _, hexec⟩

theorem toY_clause {s : State} {op : Byte} {i : Instr} {v : Word} (hshape : shapeOf op = some (.implied i))
    (hexec : exec i s = finish (toY v s)) :
    Encodes s [op] i ∧ ∃ y p, IndexIs y s.wI (v.setWidth s.wI.bits) ∧ StatusIs s.p p (nz (v.setWidth s.wI.bits)) ∧
      exec i s = .next { s with pc := s.pcn 1, y := y, p := p } :=
  ⟨encodes_implied hshape s, _, _, indexIs_writeY s _, statusIs_setNZ s _, hexec⟩

theorem toA_clause {s : State} {op : Byte} {i : Instr} {v : Word} (hshape : shapeOf op = some (.implied i))
    (hexec : exec i s = finish (toA v s)) :
    Encodes s [op] i ∧ ∃ c p, AccIs s.c c s.wA (v.setWidth s.wA.bits) ∧ StatusIs s.p p (nz (v.setWidth s.wA.bits)) ∧
      exec i s = .next { s with pc := s.pcn 1, c := c, p := p } :=
  ⟨encodes_implied hshape s, _, _, accIs_writeA s _, statusIs_setNZ s _, hexec⟩

/-- Settles O59: each row of the three tables is a transfer of its source into the register the table is for. -/
theorem transfersToIndexAndAccumulator : Obligations.TransfersToIndexAndAccumulator := by
  intro s
  simp only [List.forall_mem_cons, List.not_mem_nil, IsEmpty.forall_iff, implies_true, and_true]
  exact ⟨⟨toX_clause rfl rfl, toX_clause rfl rfl, toX_clause rfl rfl⟩, ⟨toY_clause rfl rfl, toY_clause rfl rfl⟩,
    toA_clause rfl rfl, toA_clause rfl rfl⟩

/-! ### Transfers of 16 bits -/

theorem toC_clause {s : State} {op : Byte} {i : Instr} {v : Word} (hshape : shapeOf op = some (.implied i))
    (hexec : exec i s = finish (toC v s)) :
    Encodes s [op] i ∧ ∃ p, StatusIs s.p p (nz v) ∧ exec i s = .next { s with pc := s.pcn 1, c := v, p := p } :=
  ⟨encodes_implied hshape s, _, statusIs_setNZ s v, hexec⟩

theorem toS_clause {s : State} {op : Byte} {i : Instr} {v : Word} (hshape : shapeOf op = some (.implied i))
    (hexec : exec i s = finish (toS v s)) :
    Encodes s [op] i ∧
      exec i s = .next { s with pc := s.pcn 1, s := if s.e then word (hi s.s) (lo v) else v } :=
  ⟨encodes_implied hshape s, hexec⟩

/-- TCD sets N and Z: the parameter TCD_SETS_NZ is true (R366; log 9). -/
theorem tcd_eq (s : State) : tcd s = .ok ({ s.advance 1 with d := s.c }.setNZ s.c) := rfl

/-- Settles O60: TDC and TSC write C, TXS and TCS write S, and TCD alone writes D. -/
theorem sixteenBitTransfers : Obligations.SixteenBitTransfers := fun s =>
  ⟨toC_clause rfl rfl, toC_clause rfl rfl,
    ⟨encodes_implied rfl s, _, statusIs_setNZ s s.c, finish_next.2 (tcd_eq s)⟩,
    toS_clause rfl rfl, toS_clause rfl rfl⟩

end Sys2Proof.Machine
end
